-- ==== Sys2Proof/Word.lean ====
section
/-! DEFINITION. The word types of the MSTP_Analizer CORE. Every value of this hardware is an unsigned
bit vector of a stated width and nothing is signed (spec/00_scope.md R9). -/

namespace Sys2Proof

/-- `u8` of R9: an octet, a CRC-8 accumulator, an address, a frame-type code. -/
abbrev Byte := BitVec 8

/-- `u16` of R9: the length field, the CRC-16 accumulator, a payload address. -/
abbrev Half := BitVec 16

/-- `time` of R9 at `TS_W = 64`, the width R6 fixes: an unsigned count of ticks. -/
abbrev Time := BitVec 64

/-- `u17` of R9: the width of `data_idx` (R24). -/
abbrev Idx17 := BitVec 17

end Sys2Proof
end

