-- ==== Sys2Proof/Config.lean ====
section
/-! DEFINITION. What an implementation fixes: the protocol constants of spec/00_scope.md R6, and the one
free value of the model. -/

namespace Sys2Proof.Config

/-- `PREAMBLE1` (R6): the first preamble octet. -/
def preamble1 : Byte := 0x55#8

/-- `PREAMBLE2` (R6): the second preamble octet. -/
def preamble2 : Byte := 0xFF#8

/-- `HCRC_SEED` (R6): the seed of the header CRC accumulator. -/
def hcrcSeed : Byte := 0xFF#8

/-- `HCRC_GOOD` (R6): the header CRC sentinel. -/
def hcrcGood : Byte := 0x55#8

/-- `DCRC_SEED` (R6): the seed of the data CRC accumulator. -/
def dcrcSeed : Half := 0xFFFF#16

/-- `DCRC_GOOD` (R6): the data CRC sentinel. -/
def dcrcGood : Half := 0xF0B8#16

/-- `HEADER_LEN` (R6): the octets of a header. -/
def headerLen : Nat := 6

/-- `PAYLOAD_MAX` (R6): the cells of the payload store, with indices 0 to 65534 (R60). -/
def payloadMax : Nat := 65535

/-- FREE VALUE (log entry 5). What an unspecified `PAYLOAD` cell reads as, by cell address and by
cycle: R64, R66 and items U2, U3 of spec/93_implementation_defined.md leave it "any value". It has no
body, so nothing can be proved of the octet it gives. -/
opaque unspecifiedCell : Nat → Nat → Byte

end Sys2Proof.Config
end

