-- ==== Sys2Proof/Syntax.lean ====
section
/-! DEFINITION. The operations of spec/opcode_table.json, one constructor per row: the 19 dispatched
operations of spec/30_encoding.md R93 and the six sub-functions of R95. -/

namespace Sys2Proof

/-- The three errors of R200 (the value `none` of the 2-bit code is `Option.none`). -/
inductive FrameError where
  /-- code 1 (R201) -/
  | timeout
  /-- code 2 (R202) -/
  | badHeaderCrc
  /-- code 3 (R203) -/
  | badDataCrc
  deriving DecidableEq, Repr

/-- One constructor per row of the opcode table. A dispatched operation carries the `octet` field of its
dispatch word where that field is not fixed or ignored. Its other operands, `ts` and `cfg_timeout`, are
no part of the word (R90): they are input ports of the cycle, held in the state. -/
inductive Instr where
  /-- RESET, R230 -/
  | reset
  /-- HOLD, R232 -/
  | hold
  /-- I_START, R140: the octet is `0x55` -/
  | iStart
  /-- I_NOISE, R141: any octet but `0x55` -/
  | iNoise (octet : Byte)
  /-- P_TIMEOUT, R143: the octet is ignored -/
  | pTimeout
  /-- P_SYNC, R144: the octet is `0xFF` -/
  | pSync
  /-- P_REPEAT, R145: the octet is `0x55` -/
  | pRepeat
  /-- P_ABANDON, R146: any octet but `0xFF` and `0x55` -/
  | pAbandon (octet : Byte)
  /-- H_TIMEOUT, R155: the octet is ignored -/
  | hTimeout
  /-- H_TYPE, R156 -/
  | hType (octet : Byte)
  /-- H_DST, R157 -/
  | hDst (octet : Byte)
  /-- H_SRC, R158 -/
  | hSrc (octet : Byte)
  /-- H_LENHI, R159 -/
  | hLenhi (octet : Byte)
  /-- H_LENLO, R160 -/
  | hLenlo (octet : Byte)
  /-- H_CRC, R161 -/
  | hCrc (octet : Byte)
  /-- D_TIMEOUT, R170: the octet is ignored -/
  | dTimeout
  /-- D_PAYLOAD, R171 -/
  | dPayload (octet : Byte)
  /-- D_CRC1, R172 -/
  | dCrc1 (octet : Byte)
  /-- D_CRC2, R173 -/
  | dCrc2 (octet : Byte)
  /-- crc8, R110 -/
  | crc8 (byte : Byte) (crcIn : Byte)
  /-- crc16, R120 -/
  | crc16 (byte : Byte) (crcIn : Half)
  /-- name_of, R130 -/
  | nameOf (code : Option Byte)
  /-- frame_reset, R36 -/
  | frameReset
  /-- finalize, R180 -/
  | finalize (err : Option FrameError) (ts : Time)
  /-- emit, R183: its operand is the In-Flight Frame, which the state holds -/
  | emit
  deriving DecidableEq, Repr

/-- The row's mnemonic, as spec/opcode_table.json spells it. -/
def Instr.mnemonic : Instr → String
  | .reset => "RESET"
  | .hold => "HOLD"
  | .iStart => "I_START"
  | .iNoise _ => "I_NOISE"
  | .pTimeout => "P_TIMEOUT"
  | .pSync => "P_SYNC"
  | .pRepeat => "P_REPEAT"
  | .pAbandon _ => "P_ABANDON"
  | .hTimeout => "H_TIMEOUT"
  | .hType _ => "H_TYPE"
  | .hDst _ => "H_DST"
  | .hSrc _ => "H_SRC"
  | .hLenhi _ => "H_LENHI"
  | .hLenlo _ => "H_LENLO"
  | .hCrc _ => "H_CRC"
  | .dTimeout => "D_TIMEOUT"
  | .dPayload _ => "D_PAYLOAD"
  | .dCrc1 _ => "D_CRC1"
  | .dCrc2 _ => "D_CRC2"
  | .crc8 _ _ => "crc8"
  | .crc16 _ _ => "crc16"
  | .nameOf _ => "name_of"
  | .frameReset => "frame_reset"
  | .finalize _ _ => "finalize"
  | .emit => "emit"

/-- The row's `dispatch` entry (R95): whether the dispatch word selects the operation. -/
def Instr.dispatched : Instr → Bool
  | .reset => true
  | .hold => true
  | .iStart => true
  | .iNoise _ => true
  | .pTimeout => true
  | .pSync => true
  | .pRepeat => true
  | .pAbandon _ => true
  | .hTimeout => true
  | .hType _ => true
  | .hDst _ => true
  | .hSrc _ => true
  | .hLenhi _ => true
  | .hLenlo _ => true
  | .hCrc _ => true
  | .dTimeout => true
  | .dPayload _ => true
  | .dCrc1 _ => true
  | .dCrc2 _ => true
  | .crc8 _ _ => false
  | .crc16 _ _ => false
  | .nameOf _ => false
  | .frameReset => false
  | .finalize _ _ => false
  | .emit => false

end Sys2Proof
end

