-- ==== Sys2Proof/WellFormed.lean ====
section
/-! DEFINITION. Which terms of `Instr` are operations the spec has. Only two operands are restricted: the
rows of spec/30_encoding.md R93 whose octet column says "other". -/

namespace Sys2Proof

/-- R93 row 4: the octet of I_NOISE is any but `0x55`. -/
def noiseOctetOk (octet : Byte) : Bool :=
  octet != Config.preamble1

/-- R93 row 8: the octet of P_ABANDON is any but `0xFF` and `0x55`. -/
def abandonOctetOk (octet : Byte) : Bool :=
  octet != Config.preamble2 && octet != Config.preamble1

/-- The well-formed operations. -/
def Instr.wellFormed : Instr → Bool
  | .reset => true
  | .hold => true
  | .iStart => true
  | .iNoise octet => noiseOctetOk octet
  | .pTimeout => true
  | .pSync => true
  | .pRepeat => true
  | .pAbandon octet => abandonOctetOk octet
  | .hTimeout => true
  | .hType _ => true
  | .hDst _ => true
  | .hSrc _ => true
  | .hLenhi _ => true
  | .hLenlo _ => true
  | .hCrc _ => true
  | .dTimeout => true
  | .dPayload _ => true
  | .dCrc1 _ => true
  | .dCrc2 _ => true
  | .crc8 _ _ => true
  | .crc16 _ _ => true
  | .nameOf _ => true
  | .frameReset => true
  | .finalize _ _ => true
  | .emit => true

end Sys2Proof
end

