-- ==== Sys2Proof/Decode.lean ====
section
/-! DEFINITION. The 16-bit dispatch word and the operation map of spec/30_encoding.md R90, R93 and R94:
decoding by the table of masks and matches, first match wins, and the encoder written from the table's
field columns. -/

namespace Sys2Proof

/-- The layout of the dispatch word (R90): `rst` bit 15, `in_valid` bit 14, `T` bit 13, `S` bits 12:11,
`P` bits 10:8, `octet` bits 7:0. -/
def packWord (rst inValid trip : Bool) (st : BitVec 2) (pos : BitVec 3) (octet : Byte) : BitVec 16 :=
  BitVec.ofBool rst ++ BitVec.ofBool inValid ++ BitVec.ofBool trip ++ st ++ pos ++ octet

/-- Field `rst` of the dispatch word (R90). -/
def wordRst (w : BitVec 16) : Bool := w.getLsbD 15

/-- Field `in_valid` of the dispatch word (R90). -/
def wordInValid (w : BitVec 16) : Bool := w.getLsbD 14

/-- Field `T` of the dispatch word (R90). -/
def wordTrip (w : BitVec 16) : Bool := w.getLsbD 13

/-- Field `S` of the dispatch word (R90). -/
def wordState (w : BitVec 16) : BitVec 2 := w.extractLsb' 11 2

/-- Field `P` of the dispatch word (R90). -/
def wordPos (w : BitVec 16) : BitVec 3 := w.extractLsb' 8 3

/-- Field `octet` of the dispatch word (R90). -/
def wordOctet (w : BitVec 16) : Byte := w.extractLsb' 0 8

/-- A row of the operation map (R93): a word `w` matches when `(w & mask) = pattern`, and `build` makes
the operation from the word's octet. -/
structure OpRow where
  mnemonic : String
  mask : BitVec 16
  pattern : BitVec 16
  build : Byte → Instr

/-- The operation map of R93, its 19 rows in priority order. -/
def opTable : List OpRow :=
  [ ⟨"RESET", 0x8000#16, 0x8000#16, fun _ => .reset⟩,
    ⟨"HOLD", 0xC000#16, 0x0000#16, fun _ => .hold⟩,
    ⟨"I_START", 0xD8FF#16, 0x4055#16, fun _ => .iStart⟩,
    ⟨"I_NOISE", 0xD800#16, 0x4000#16, fun octet => .iNoise octet⟩,
    ⟨"P_TIMEOUT", 0xF800#16, 0x6800#16, fun _ => .pTimeout⟩,
    ⟨"P_SYNC", 0xF8FF#16, 0x48FF#16, fun _ => .pSync⟩,
    ⟨"P_REPEAT", 0xF8FF#16, 0x4855#16, fun _ => .pRepeat⟩,
    ⟨"P_ABANDON", 0xF800#16, 0x4800#16, fun octet => .pAbandon octet⟩,
    ⟨"H_TIMEOUT", 0xF800#16, 0x7000#16, fun _ => .hTimeout⟩,
    ⟨"H_TYPE", 0xFF00#16, 0x5000#16, fun octet => .hType octet⟩ ] ++
  [ ⟨"H_DST", 0xFF00#16, 0x5100#16, fun octet => .hDst octet⟩,
    ⟨"H_SRC", 0xFF00#16, 0x5200#16, fun octet => .hSrc octet⟩,
    ⟨"H_LENHI", 0xFF00#16, 0x5300#16, fun octet => .hLenhi octet⟩,
    ⟨"H_LENLO", 0xFF00#16, 0x5400#16, fun octet => .hLenlo octet⟩,
    ⟨"H_CRC", 0xFF00#16, 0x5500#16, fun octet => .hCrc octet⟩,
    ⟨"D_TIMEOUT", 0xF800#16, 0x7800#16, fun _ => .dTimeout⟩,
    ⟨"D_PAYLOAD", 0xFF00#16, 0x5800#16, fun octet => .dPayload octet⟩,
    ⟨"D_CRC1", 0xFF00#16, 0x5900#16, fun octet => .dCrc1 octet⟩,
    ⟨"D_CRC2", 0xFF00#16, 0x5A00#16, fun octet => .dCrc2 octet⟩ ]

/-- Whether a word matches a row (R93). -/
def OpRow.admits (r : OpRow) (w : BitVec 16) : Bool :=
  w &&& r.mask == r.pattern

/-- Why a word is no operation: the two classes of words that match no row (R94). -/
inductive DecodeReject where
  /-- `S = Header` with `P` 6 or 7. -/
  | headerPosition (pos : BitVec 3)
  /-- `S = Data` with `P` 3 to 7. -/
  | dataPosition (pos : BitVec 3)
  deriving DecidableEq, Repr

/-- The name of the rejection of a word that matches no row (R94). -/
def rejectReason (w : BitVec 16) : DecodeReject :=
  if wordState w = 2#2 then .headerPosition (wordPos w) else .dataPosition (wordPos w)

/-- The decoder: the first row of the operation map that admits the word (R93). A word that matches no
row is rejected by name and is never a no-op (R94). -/
def decode (w : BitVec 16) : Except DecodeReject Instr :=
  match opTable.find? (fun r => r.admits w) with
  | some r => .ok (r.build (wordOctet w))
  | none => .error (rejectReason w)

/-- The decoder on a row of spec/opcode_table.json: the word's bits above `nbits` are 0, and a number
that does not fit the 16 bits of a dispatch word is no operation. -/
def decodeTableWord (nbits w : Nat) : Option Instr :=
  if nbits = 0 then none
  else if w % 2 ^ nbits < 2 ^ 16 then (decode (BitVec.ofNat 16 (w % 2 ^ nbits))).toOption
  else none

/-- An event word of the encoder: `rst = 0`, `in_valid = 1`. -/
def eventWord (trip : Bool) (st : BitVec 2) (pos : BitVec 3) (octet : Byte) : BitVec 16 :=
  packWord false true trip st pos octet

/-- The encoder, from the field columns of R93: the dispatch word of a dispatched operation, with every
field the row marks `x` at 0. A sub-function has no word (R95). -/
def encode : Instr → Option (BitVec 16)
  | .reset => some (packWord true false false 0#2 0#3 0#8)
  | .hold => some (packWord false false false 0#2 0#3 0#8)
  | .iStart => some (eventWord false 0#2 0#3 0x55#8)
  | .iNoise octet => some (eventWord false 0#2 0#3 octet)
  | .pTimeout => some (eventWord true 1#2 0#3 0#8)
  | .pSync => some (eventWord false 1#2 0#3 0xFF#8)
  | .pRepeat => some (eventWord false 1#2 0#3 0x55#8)
  | .pAbandon octet => some (eventWord false 1#2 0#3 octet)
  | .hTimeout => some (eventWord true 2#2 0#3 0#8)
  | .hType octet => some (eventWord false 2#2 0#3 octet)
  | .hDst octet => some (eventWord false 2#2 1#3 octet)
  | .hSrc octet => some (eventWord false 2#2 2#3 octet)
  | .hLenhi octet => some (eventWord false 2#2 3#3 octet)
  | .hLenlo octet => some (eventWord false 2#2 4#3 octet)
  | .hCrc octet => some (eventWord false 2#2 5#3 octet)
  | .dTimeout => some (eventWord true 3#2 0#3 0#8)
  | .dPayload octet => some (eventWord false 3#2 0#3 octet)
  | .dCrc1 octet => some (eventWord false 3#2 1#3 octet)
  | .dCrc2 octet => some (eventWord false 3#2 2#3 octet)
  | .crc8 _ _ => none
  | .crc16 _ _ => none
  | .nameOf _ => none
  | .frameReset => none
  | .finalize _ _ => none
  | .emit => none

end Sys2Proof
end

