-- ==== Sys2Proof/Machine/Crc.lean ====
section
/-! DEFINITION. The two CRC engines: the tables of spec/40_crc8.md R112 and spec/41_crc16.md R122, the
steps of R110 and R120, and the two other forms the spec gives each table (R113, R114, R123, R124). -/

namespace Sys2Proof.Machine

/-- `CRC8_ROM`, R112: entry `i` is the element at position `i`. -/
def crc8Rom : List Byte :=
  [ 0x00#8, 0xFE#8, 0xFF#8, 0x01#8, 0xFD#8, 0x03#8, 0x02#8, 0xFC#8 ] ++
  [ 0xF9#8, 0x07#8, 0x06#8, 0xF8#8, 0x04#8, 0xFA#8, 0xFB#8, 0x05#8 ] ++
  [ 0xF1#8, 0x0F#8, 0x0E#8, 0xF0#8, 0x0C#8, 0xF2#8, 0xF3#8, 0x0D#8 ] ++
  [ 0x08#8, 0xF6#8, 0xF7#8, 0x09#8, 0xF5#8, 0x0B#8, 0x0A#8, 0xF4#8 ] ++
  [ 0xE1#8, 0x1F#8, 0x1E#8, 0xE0#8, 0x1C#8, 0xE2#8, 0xE3#8, 0x1D#8 ] ++
  [ 0x18#8, 0xE6#8, 0xE7#8, 0x19#8, 0xE5#8, 0x1B#8, 0x1A#8, 0xE4#8 ] ++
  [ 0x10#8, 0xEE#8, 0xEF#8, 0x11#8, 0xED#8, 0x13#8, 0x12#8, 0xEC#8 ] ++
  [ 0xE9#8, 0x17#8, 0x16#8, 0xE8#8, 0x14#8, 0xEA#8, 0xEB#8, 0x15#8 ] ++
  [ 0xC1#8, 0x3F#8, 0x3E#8, 0xC0#8, 0x3C#8, 0xC2#8, 0xC3#8, 0x3D#8 ] ++
  [ 0x38#8, 0xC6#8, 0xC7#8, 0x39#8, 0xC5#8, 0x3B#8, 0x3A#8, 0xC4#8 ] ++
  [ 0x30#8, 0xCE#8, 0xCF#8, 0x31#8, 0xCD#8, 0x33#8, 0x32#8, 0xCC#8 ] ++
  [ 0xC9#8, 0x37#8, 0x36#8, 0xC8#8, 0x34#8, 0xCA#8, 0xCB#8, 0x35#8 ] ++
  [ 0x20#8, 0xDE#8, 0xDF#8, 0x21#8, 0xDD#8, 0x23#8, 0x22#8, 0xDC#8 ] ++
  [ 0xD9#8, 0x27#8, 0x26#8, 0xD8#8, 0x24#8, 0xDA#8, 0xDB#8, 0x25#8 ] ++
  [ 0xD1#8, 0x2F#8, 0x2E#8, 0xD0#8, 0x2C#8, 0xD2#8, 0xD3#8, 0x2D#8 ] ++
  [ 0x28#8, 0xD6#8, 0xD7#8, 0x29#8, 0xD5#8, 0x2B#8, 0x2A#8, 0xD4#8 ] ++
  [ 0x81#8, 0x7F#8, 0x7E#8, 0x80#8, 0x7C#8, 0x82#8, 0x83#8, 0x7D#8 ] ++
  [ 0x78#8, 0x86#8, 0x87#8, 0x79#8, 0x85#8, 0x7B#8, 0x7A#8, 0x84#8 ] ++
  [ 0x70#8, 0x8E#8, 0x8F#8, 0x71#8, 0x8D#8, 0x73#8, 0x72#8, 0x8C#8 ] ++
  [ 0x89#8, 0x77#8, 0x76#8, 0x88#8, 0x74#8, 0x8A#8, 0x8B#8, 0x75#8 ] ++
  [ 0x60#8, 0x9E#8, 0x9F#8, 0x61#8, 0x9D#8, 0x63#8, 0x62#8, 0x9C#8 ] ++
  [ 0x99#8, 0x67#8, 0x66#8, 0x98#8, 0x64#8, 0x9A#8, 0x9B#8, 0x65#8 ] ++
  [ 0x91#8, 0x6F#8, 0x6E#8, 0x90#8, 0x6C#8, 0x92#8, 0x93#8, 0x6D#8 ] ++
  [ 0x68#8, 0x96#8, 0x97#8, 0x69#8, 0x95#8, 0x6B#8, 0x6A#8, 0x94#8 ] ++
  [ 0x40#8, 0xBE#8, 0xBF#8, 0x41#8, 0xBD#8, 0x43#8, 0x42#8, 0xBC#8 ] ++
  [ 0xB9#8, 0x47#8, 0x46#8, 0xB8#8, 0x44#8, 0xBA#8, 0xBB#8, 0x45#8 ] ++
  [ 0xB1#8, 0x4F#8, 0x4E#8, 0xB0#8, 0x4C#8, 0xB2#8, 0xB3#8, 0x4D#8 ] ++
  [ 0x48#8, 0xB6#8, 0xB7#8, 0x49#8, 0xB5#8, 0x4B#8, 0x4A#8, 0xB4#8 ] ++
  [ 0xA1#8, 0x5F#8, 0x5E#8, 0xA0#8, 0x5C#8, 0xA2#8, 0xA3#8, 0x5D#8 ] ++
  [ 0x58#8, 0xA6#8, 0xA7#8, 0x59#8, 0xA5#8, 0x5B#8, 0x5A#8, 0xA4#8 ] ++
  [ 0x50#8, 0xAE#8, 0xAF#8, 0x51#8, 0xAD#8, 0x53#8, 0x52#8, 0xAC#8 ] ++
  [ 0xA9#8, 0x57#8, 0x56#8, 0xA8#8, 0x54#8, 0xAA#8, 0xAB#8, 0x55#8 ]

/-- `CRC16_ROM`, R122: entry `i` is the element at position `i`. -/
def crc16Rom : List Half :=
  [ 0x0000#16, 0x1189#16, 0x2312#16, 0x329B#16, 0x4624#16, 0x57AD#16, 0x6536#16, 0x74BF#16 ] ++
  [ 0x8C48#16, 0x9DC1#16, 0xAF5A#16, 0xBED3#16, 0xCA6C#16, 0xDBE5#16, 0xE97E#16, 0xF8F7#16 ] ++
  [ 0x1081#16, 0x0108#16, 0x3393#16, 0x221A#16, 0x56A5#16, 0x472C#16, 0x75B7#16, 0x643E#16 ] ++
  [ 0x9CC9#16, 0x8D40#16, 0xBFDB#16, 0xAE52#16, 0xDAED#16, 0xCB64#16, 0xF9FF#16, 0xE876#16 ] ++
  [ 0x2102#16, 0x308B#16, 0x0210#16, 0x1399#16, 0x6726#16, 0x76AF#16, 0x4434#16, 0x55BD#16 ] ++
  [ 0xAD4A#16, 0xBCC3#16, 0x8E58#16, 0x9FD1#16, 0xEB6E#16, 0xFAE7#16, 0xC87C#16, 0xD9F5#16 ] ++
  [ 0x3183#16, 0x200A#16, 0x1291#16, 0x0318#16, 0x77A7#16, 0x662E#16, 0x54B5#16, 0x453C#16 ] ++
  [ 0xBDCB#16, 0xAC42#16, 0x9ED9#16, 0x8F50#16, 0xFBEF#16, 0xEA66#16, 0xD8FD#16, 0xC974#16 ] ++
  [ 0x4204#16, 0x538D#16, 0x6116#16, 0x709F#16, 0x0420#16, 0x15A9#16, 0x2732#16, 0x36BB#16 ] ++
  [ 0xCE4C#16, 0xDFC5#16, 0xED5E#16, 0xFCD7#16, 0x8868#16, 0x99E1#16, 0xAB7A#16, 0xBAF3#16 ] ++
  [ 0x5285#16, 0x430C#16, 0x7197#16, 0x601E#16, 0x14A1#16, 0x0528#16, 0x37B3#16, 0x263A#16 ] ++
  [ 0xDECD#16, 0xCF44#16, 0xFDDF#16, 0xEC56#16, 0x98E9#16, 0x8960#16, 0xBBFB#16, 0xAA72#16 ] ++
  [ 0x6306#16, 0x728F#16, 0x4014#16, 0x519D#16, 0x2522#16, 0x34AB#16, 0x0630#16, 0x17B9#16 ] ++
  [ 0xEF4E#16, 0xFEC7#16, 0xCC5C#16, 0xDDD5#16, 0xA96A#16, 0xB8E3#16, 0x8A78#16, 0x9BF1#16 ] ++
  [ 0x7387#16, 0x620E#16, 0x5095#16, 0x411C#16, 0x35A3#16, 0x242A#16, 0x16B1#16, 0x0738#16 ] ++
  [ 0xFFCF#16, 0xEE46#16, 0xDCDD#16, 0xCD54#16, 0xB9EB#16, 0xA862#16, 0x9AF9#16, 0x8B70#16 ] ++
  [ 0x8408#16, 0x9581#16, 0xA71A#16, 0xB693#16, 0xC22C#16, 0xD3A5#16, 0xE13E#16, 0xF0B7#16 ] ++
  [ 0x0840#16, 0x19C9#16, 0x2B52#16, 0x3ADB#16, 0x4E64#16, 0x5FED#16, 0x6D76#16, 0x7CFF#16 ] ++
  [ 0x9489#16, 0x8500#16, 0xB79B#16, 0xA612#16, 0xD2AD#16, 0xC324#16, 0xF1BF#16, 0xE036#16 ] ++
  [ 0x18C1#16, 0x0948#16, 0x3BD3#16, 0x2A5A#16, 0x5EE5#16, 0x4F6C#16, 0x7DF7#16, 0x6C7E#16 ] ++
  [ 0xA50A#16, 0xB483#16, 0x8618#16, 0x9791#16, 0xE32E#16, 0xF2A7#16, 0xC03C#16, 0xD1B5#16 ] ++
  [ 0x2942#16, 0x38CB#16, 0x0A50#16, 0x1BD9#16, 0x6F66#16, 0x7EEF#16, 0x4C74#16, 0x5DFD#16 ] ++
  [ 0xB58B#16, 0xA402#16, 0x9699#16, 0x8710#16, 0xF3AF#16, 0xE226#16, 0xD0BD#16, 0xC134#16 ] ++
  [ 0x39C3#16, 0x284A#16, 0x1AD1#16, 0x0B58#16, 0x7FE7#16, 0x6E6E#16, 0x5CF5#16, 0x4D7C#16 ] ++
  [ 0xC60C#16, 0xD785#16, 0xE51E#16, 0xF497#16, 0x8028#16, 0x91A1#16, 0xA33A#16, 0xB2B3#16 ] ++
  [ 0x4A44#16, 0x5BCD#16, 0x6956#16, 0x78DF#16, 0x0C60#16, 0x1DE9#16, 0x2F72#16, 0x3EFB#16 ] ++
  [ 0xD68D#16, 0xC704#16, 0xF59F#16, 0xE416#16, 0x90A9#16, 0x8120#16, 0xB3BB#16, 0xA232#16 ] ++
  [ 0x5AC5#16, 0x4B4C#16, 0x79D7#16, 0x685E#16, 0x1CE1#16, 0x0D68#16, 0x3FF3#16, 0x2E7A#16 ] ++
  [ 0xE70E#16, 0xF687#16, 0xC41C#16, 0xD595#16, 0xA12A#16, 0xB0A3#16, 0x8238#16, 0x93B1#16 ] ++
  [ 0x6B46#16, 0x7ACF#16, 0x4854#16, 0x59DD#16, 0x2D62#16, 0x3CEB#16, 0x0E70#16, 0x1FF9#16 ] ++
  [ 0xF78F#16, 0xE606#16, 0xD49D#16, 0xC514#16, 0xB1AB#16, 0xA022#16, 0x92B9#16, 0x8330#16 ] ++
  [ 0x7BC7#16, 0x6A4E#16, 0x58D5#16, 0x495C#16, 0x3DE3#16, 0x2C6A#16, 0x1EF1#16, 0x0F78#16 ]

/-- `MemRead(CRC8_ROM, a, 8)` (R61). -/
def crc8RomRead (a : Byte) : Byte :=
  crc8Rom.getD a.toNat 0#8

/-- `MemRead(CRC16_ROM, a, 16)` (R62). -/
def crc16RomRead (a : Byte) : Half :=
  crc16Rom.getD a.toNat 0#16

/-- The header CRC step (R110). -/
def crc8 (byte crcIn : Byte) : Byte :=
  crc8RomRead (crcIn ^^^ byte)

/-- The data CRC step (R120). -/
def crc16 (byte : Byte) (crcIn : Half) : Half :=
  (crcIn >>> 8) ^^^ crc16RomRead (crcIn.setWidth 8 ^^^ byte)

/-- The header CRC accumulator after a sequence of octets (R111). -/
def crc8Fold (octets : List Byte) (seed : Byte) : Byte :=
  octets.foldl (fun acc b => crc8 b acc) seed

/-- The data CRC accumulator after a sequence of octets (R121). -/
def crc16Fold (octets : List Byte) (seed : Half) : Half :=
  octets.foldl (fun acc b => crc16 b acc) seed

/-- One bit of the bit-serial generator of R113. -/
def crc8SerialBit (c : Byte) : Byte :=
  if c.getLsbD 0 then (c >>> 1) ^^^ 0x81#8 else c >>> 1

/-- The bit-serial generator of an entry of `CRC8_ROM` (R113). -/
def crc8Serial (i : Byte) : Byte :=
  Nat.repeat crc8SerialBit 8 i

/-- The shift-XOR form of the header CRC step (R114). -/
def crc8Direct (byte crcIn : Byte) : Byte :=
  let t : BitVec 16 := (crcIn ^^^ byte).setWidth 16
  let t := t ^^^ (t <<< 1) ^^^ (t <<< 2) ^^^ (t <<< 3) ^^^ (t <<< 4) ^^^ (t <<< 5) ^^^ (t <<< 6) ^^^ (t <<< 7)
  (t &&& 0xFE#16).setWidth 8 ^^^ (BitVec.ofBool (t.getLsbD 8)).setWidth 8

/-- One bit of the bit-serial generator of R123. -/
def crc16SerialBit (c : Half) : Half :=
  if c.getLsbD 0 then (c >>> 1) ^^^ 0x8408#16 else c >>> 1

/-- The bit-serial generator of an entry of `CRC16_ROM` (R123). -/
def crc16Serial (i : Byte) : Half :=
  Nat.repeat crc16SerialBit 8 (i.setWidth 16)

/-- The shift-XOR form of the data CRC step (R124). -/
def crc16Direct (byte : Byte) (crcIn : Half) : Half :=
  let lo : Byte := crcIn.setWidth 8 ^^^ byte
  let w : BitVec 32 := lo.setWidth 32
  let r : BitVec 32 := (crcIn >>> 8).setWidth 32 ^^^ (w <<< 8) ^^^ (w <<< 3) ^^^ (w <<< 12) ^^^ (w >>> 4) ^^^
    (w &&& 0x0F#32) ^^^ ((w &&& 0x0F#32) <<< 7)
  r.setWidth 16

end Sys2Proof.Machine
end

