-- ==== Sys2Proof/Machine/State.lean ====
section
/-! DEFINITION. The state of one CORE instance: the registers of spec/10_state.md R21 and R42, the payload
store of spec/20_memory.md R63, the output of a step, and the pins the host will drive. Plain data. -/

namespace Sys2Proof.Machine

/-- The four receive states (R22). -/
inductive RxState where
  | idle
  | preamble
  | header
  | data
  deriving DecidableEq, Repr

/-- The shape of a record (R184). Code 3 is never produced (R96) and has no constructor. -/
inductive Kind where
  | plain
  | data
  | malformed
  deriving DecidableEq, Repr

/-- The frame-type names (R131). Ids 9 to 14 are never produced (R96) and have no constructor. -/
inductive TypeName where
  | token
  | pollForMaster
  | replyToPollForMaster
  | testRequest
  | testResponse
  | bacnetDataExpectingReply
  | bacnetDataNotExpectingReply
  | replyPostponed
  /-- id 8: every code 8 to 255 -/
  | unknownReserved
  /-- id 15, `NONE`: no type octet was received -/
  | absent
  deriving DecidableEq, Repr

/-- The In-Flight Frame (R26 to R37). A register the spec calls optional is an option (R11). -/
structure Frame where
  frameType : Option Byte
  dstAddr : Option Byte
  srcAddr : Option Byte
  length : Half
  headerCrcRunning : Byte
  headerCrcReceived : Option Byte
  headerCrcValid : Option Bool
  payloadCount : Half
  dataCrcRunning : Half
  dataCrcMsb : Option Byte
  dataCrcLsb : Option Byte
  valid : Option Bool
  error : Option FrameError
  startTime : Time
  endTime : Time
  deriving DecidableEq, Repr

/-- The Decoded Frame Record (R184), what a finalizing step returns at the event level. -/
structure Record where
  kind : Kind
  error : Option FrameError
  valid : Bool
  frameType : Option Byte
  frameTypeName : TypeName
  dst : Option Byte
  src : Option Byte
  length : Half
  headerCrc : Option Byte
  headerCrcValid : Option Bool
  dataBytes : List Byte
  dataCrcMsb : Option Byte
  dataCrcLsb : Option Byte
  dataCrc : Option Half
  startTime : Time
  endTime : Time
  deriving DecidableEq, Repr

/-- The output record registers (R42), `out_valid` apart. Enumerated values are held as their codes
(R96), because the ports show them as words. -/
structure OutRegs where
  kind : BitVec 2
  error : BitVec 2
  frameValid : Bool
  typeName : BitVec 4
  frameType : Option Byte
  dst : Option Byte
  src : Option Byte
  length : Half
  headerCrc : Option Byte
  headerCrcValid : Option Bool
  payloadCount : Half
  dataCrcMsb : Option Byte
  dataCrcLsb : Option Byte
  dataCrc : Option Half
  startTime : Time
  endTime : Time
  deriving DecidableEq, Repr

/-- The input ports of one clock cycle (R44). -/
structure Pins where
  rst : Bool
  inValid : Bool
  inOctet : Byte
  inTs : Time
  cfgTimeout : Time
  plRaddr : Half
  deriving DecidableEq, Repr

/-- What an operation returns (R12): nothing, the record of a finalizing step, or the result of a
sub-function of R95. -/
inductive Returned where
  | nothing
  | record (r : Record)
  | octet (v : Byte)
  | word (v : Half)
  | name (n : TypeName)
  deriving DecidableEq, Repr

/-- The payload store: the cells that have been written, as (index, octet) pairs in rising order of
index. A cell that is not listed has no specified value (R64). -/
abbrev Memory := List Host.Cell

/-- The state of one CORE instance. The last three fields are the model's own (log entries 1, 3, 5). -/
structure State where
  /-- `state` (R22) -/
  state : RxState
  /-- `hdr_idx` (R23) -/
  hdrIdx : BitVec 3
  /-- `data_idx` (R24) -/
  dataIdx : Idx17
  /-- `last_time` (R25) -/
  lastTime : Time
  /-- the In-Flight Frame (R20) -/
  frame : Frame
  /-- `PAYLOAD` (R63) -/
  payload : Memory
  /-- `out_valid` (R43) -/
  outValid : Bool
  /-- `out_*` (R42) -/
  out : OutRegs
  /-- what the last operation returned -/
  returned : Returned
  /-- the pins of this cycle and of the cycles to come -/
  inputs : List Pins
  /-- how many cycles have gone by -/
  cycle : Nat
  deriving DecidableEq, Repr

/-- Why the machine stops with a fault. -/
inductive Fault where
  /-- Raised by D_PAYLOAD when `data_idx[15:0]` is 65535, an index the store does not have (R60, R63).
  No step raises it, since D_PAYLOAD is dispatched only below `length`. Safe. -/
  | payloadIndex (index : Nat)
  deriving DecidableEq, Repr

/-- Why the machine refuses to go on. -/
inductive Refusal where
  /-- Raised by an arm of exec whose instruction has no meaning yet. No arm raises it. Safe. -/
  | notModelled (mnemonic : String)
  /-- Raised by the step when the dispatch word matches no row of the operation map, which happens only
  at register values no trace reaches (R94; U1 of spec/93_implementation_defined.md: refuse). Safe. -/
  | unmatchedWord (word : BitVec 16)
  /-- Raised by emit when the frame's `valid` is absent, which is outside its domain (R182; U4: refuse).
  Safe. -/
  | emitWithoutValid
  deriving DecidableEq, Repr

/-- The outcome of an operation. -/
abbrev Result := Host.Outcome State Fault Refusal

/-- The In-Flight Frame in the "reset" column of R21. -/
def Frame.atReset : Frame :=
  { frameType := none
    dstAddr := none
    srcAddr := none
    length := 0#16
    headerCrcRunning := 0xFF#8
    headerCrcReceived := none
    headerCrcValid := none
    payloadCount := 0#16
    dataCrcRunning := 0xFFFF#16
    dataCrcMsb := none
    dataCrcLsb := none
    valid := none
    error := none
    startTime := 0#64
    endTime := 0#64 }

/-- The output record registers after RESET: all 0 (R42). -/
def OutRegs.atReset : OutRegs :=
  { kind := 0#2
    error := 0#2
    frameValid := false
    typeName := 0#4
    frameType := none
    dst := none
    src := none
    length := 0#16
    headerCrc := none
    headerCrcValid := none
    payloadCount := 0#16
    dataCrcMsb := none
    dataCrcLsb := none
    dataCrc := none
    startTime := 0#64
    endTime := 0#64 }

/-- The machine right after RESET (R49), with no `PAYLOAD` cell known and no cycle offered yet. -/
def State.reset : State :=
  { state := .idle
    hdrIdx := 0#3
    dataIdx := 0#17
    lastTime := 0#64
    frame := Frame.atReset
    payload := []
    outValid := false
    out := OutRegs.atReset
    returned := .nothing
    inputs := []
    cycle := 0 }

end Sys2Proof.Machine
end

