-- ==== Sys2Proof/Machine/Operands.lean ====
section
/-! DEFINITION. The operands of an event and the values formed from them: the pins of the current cycle
(spec/10_state.md R44), the codes of the enumerated values (spec/30_encoding.md R96), the position class
(R91) and the fields assembled from octets (R86, spec/46_finalize_emit.md R188). -/

namespace Sys2Proof.Machine

/-- A cycle with no event: `rst = 0`, `in_valid = 0`. The other pins are ignored in such a cycle (R232). -/
def Pins.quiet : Pins :=
  { rst := false, inValid := false, inOctet := 0#8, inTs := 0#64, cfgTimeout := 0#64, plRaddr := 0#16 }

/-- A cycle that carries one Timestamped Octet (R89). -/
def Pins.event (octet : Byte) (ts cfg : Time) : Pins :=
  { rst := false, inValid := true, inOctet := octet, inTs := ts, cfgTimeout := cfg, plRaddr := 0#16 }

/-- A RESET cycle (R230). -/
def Pins.resetCycle : Pins :=
  { Pins.quiet with rst := true }

/-- The pins of the current cycle. Where the host offers nothing, no event arrives (R248; log entry 1). -/
def State.pins (s : State) : Pins :=
  s.inputs.headD Pins.quiet

/-- The operand `octet` of the current event (R89). -/
def State.octet (s : State) : Byte :=
  s.pins.inOctet

/-- The operand `ts` of the current event (R89). -/
def State.ts (s : State) : Time :=
  s.pins.inTs

/-- The operand `cfg_timeout` of the current event: the value present at the event, of which the CORE
keeps no copy (R40). -/
def State.cfgTimeout (s : State) : Time :=
  s.pins.cfgTimeout

/-- The codes of `state` (R22, R96). -/
def RxState.code : RxState → BitVec 2
  | .idle => 0#2
  | .preamble => 1#2
  | .header => 2#2
  | .data => 3#2

/-- The receive state of a code (R96). -/
def RxState.ofCode (c : BitVec 2) : RxState :=
  if c = 0#2 then .idle else if c = 1#2 then .preamble else if c = 2#2 then .header else .data

/-- The codes of `error` (R35, R200). -/
def errorCode : Option FrameError → BitVec 2
  | none => 0#2
  | some .timeout => 1#2
  | some .badHeaderCrc => 2#2
  | some .badDataCrc => 3#2

/-- The codes of `kind` (R96, R184). -/
def Kind.code : Kind → BitVec 2
  | .plain => 0#2
  | .data => 1#2
  | .malformed => 2#2

/-- The position class of `Data` (R91), compared exactly: 0 below `length`, 1 at `length`, 2 at
`length + 1`. Beyond, which no trace reaches, the class is 3, so that no row matches (log entry 8). -/
def dataClass (idx : Idx17) (length : Half) : BitVec 3 :=
  if idx.toNat < length.toNat then 0#3
  else if idx.toNat = length.toNat then 1#3
  else if idx.toNat = length.toNat + 1 then 2#3
  else 3#3

/-- The position class `P` (R91). -/
def State.posClass (s : State) : BitVec 3 :=
  match s.state with
  | .idle => 0#3
  | .preamble => 0#3
  | .header => s.hdrIdx
  | .data => dataClass s.dataIdx s.frame.length

/-- `length` after H_LENHI: the octet times 256 (R159). -/
def lengthHigh (octet : Byte) : Half :=
  octet ++ 0#8

/-- `length` after H_LENLO: the octet added (R160). -/
def lengthLow (length : Half) (octet : Byte) : Half :=
  length + octet.setWidth 16

/-- `data_crc` of a record (R188): the first trailing octet in bits 15:8, the second in bits 7:0, present
when both are. -/
def joinDataCrc (msb lsb : Option Byte) : Option Half :=
  match msb, lsb with
  | some m, some l => some (m ++ l)
  | _, _ => none

/-- The payload index D_PAYLOAD writes: `data_idx[15:0]` (R63). -/
def payloadIndex (idx : Idx17) : Nat :=
  (idx.setWidth 16).toNat

end Sys2Proof.Machine
end

