-- ==== Sys2Proof/Machine/Flags.lean ====
section
/-! DEFINITION. The one-bit conditions of the CORE. It has no arithmetic flags (spec/10_state.md R39): these
are the presence bits, the trip bit of the timeout detector and the outcomes of the two CRC checks. -/

namespace Sys2Proof.Machine

/-- The presence bit `name_v` of an optional register (R11). -/
def presence {α : Type} (x : Option α) : Bool :=
  x.isSome

/-- The gap test (R135): the gap since `last_time` exceeds the threshold. The subtraction counts only
where `ts` is beyond `last`, so a timestamp that does not advance never trips. -/
def gapExceeds (last ts cfg : Time) : Bool :=
  decide (last.toNat < ts.toNat) && decide (cfg.toNat < ts.toNat - last.toNat)

/-- The trip bit `T` of the current event (R92, R135): it is 0 in `Idle`. -/
def State.trip (s : State) : Bool :=
  s.state != .idle && gapExceeds s.lastTime s.ts s.cfgTimeout

/-- The header check (R161): the accumulator after the sixth octet is the sentinel. -/
def headerGood (crc : Byte) : Bool :=
  crc == Config.hcrcGood

/-- The data check (R173): the accumulator after the second trailing octet is the sentinel. -/
def dataGood (crc : Half) : Bool :=
  crc == Config.dcrcGood

/-- `valid` as finalize writes it (R180): set exactly when there is no error. -/
def validFlag (err : Option FrameError) : Bool :=
  err.isNone

/-- The shape of a record (R183): `error` is tested before `length`. -/
def kindOf (err : Option FrameError) (length : Half) : Kind :=
  match err with
  | some _ => .malformed
  | none => if length = 0#16 then .plain else .data

end Sys2Proof.Machine
end

