-- ==== Sys2Proof/Machine/Registry.lean ====
section
/-! DEFINITION. The Frame Type Registry (spec/42_frame_type_registry.md): NAME_ROM, `name_of`, the ids and
the strings of the names. -/

namespace Sys2Proof.Machine

/-- `NAME_ROM` (R131): the names of the codes 0 to 7. -/
def nameRom : List TypeName :=
  [ .token, .pollForMaster, .replyToPollForMaster, .testRequest, .testResponse,
    .bacnetDataExpectingReply, .bacnetDataNotExpectingReply, .replyPostponed ]

/-- `name_of` (R130). A code above 7 is no error: it is named `UNKNOWN_RESERVED` (R132). -/
def nameOf (code : Option Byte) : TypeName :=
  match code with
  | none => .absent
  | some c => nameRom.getD c.toNat .unknownReserved

/-- The 4-bit id of a name (R96, R131). -/
def TypeName.id : TypeName → BitVec 4
  | .token => 0#4
  | .pollForMaster => 1#4
  | .replyToPollForMaster => 2#4
  | .testRequest => 3#4
  | .testResponse => 4#4
  | .bacnetDataExpectingReply => 5#4
  | .bacnetDataNotExpectingReply => 6#4
  | .replyPostponed => 7#4
  | .unknownReserved => 8#4
  | .absent => 15#4

/-- The string of a name (R131). -/
def TypeName.text : TypeName → String
  | .token => "TOKEN"
  | .pollForMaster => "POLL_FOR_MASTER"
  | .replyToPollForMaster => "REPLY_TO_POLL_FOR_MASTER"
  | .testRequest => "TEST_REQUEST"
  | .testResponse => "TEST_RESPONSE"
  | .bacnetDataExpectingReply => "BACNET_DATA_EXPECTING_REPLY"
  | .bacnetDataNotExpectingReply => "BACNET_DATA_NOT_EXPECTING_REPLY"
  | .replyPostponed => "REPLY_POSTPONED"
  | .unknownReserved => "UNKNOWN_RESERVED"
  | .absent => "NONE"

end Sys2Proof.Machine
end

