-- ==== Sys2Proof/Machine/Ops.lean ====
section
/-! DEFINITION. The named operations the meanings are built from: the payload store
(spec/20_memory.md R63 to R66), `frame_reset` (spec/10_state.md R36), the emitter and `finalize`
(spec/46_finalize_emit.md R180, R183), which is this hardware's taking of an exception
(spec/60_exceptions.md R210), and what every event does (spec/43_rx_sync.md R137, R138). -/

namespace Sys2Proof.Machine

/-! ### The payload store -/

/-- One cell of the store: its octet, or nothing where no D_PAYLOAD has written it (R64). -/
def Memory.read (m : Memory) (a : Nat) : Option Byte :=
  match m with
  | [] => none
  | (b, v) :: rest => if a = b then some v else Memory.read rest a

/-- `MemWrite(PAYLOAD, a, 8, v)` (R63), keeping the cells in rising order. -/
def Memory.write (m : Memory) (a : Nat) (v : Byte) : Memory :=
  match m with
  | [] => [(a, v)]
  | (b, w) :: rest =>
    if a < b then (a, v) :: (b, w) :: rest
    else if a = b then (a, v) :: rest
    else (b, w) :: Memory.write rest a v

/-- Every cell index is above `low` and they rise strictly. -/
def Memory.risesAbove (m : Memory) (low : Nat) : Bool :=
  match m with
  | [] => true
  | (b, _) :: rest => decide (low < b) && Memory.risesAbove rest b

/-- The canonical form: indices rise strictly and lie inside the store (R60). An unlisted cell has no
value, so no entry can equal what an unlisted cell reads as. -/
def Memory.wf (m : Memory) : Bool :=
  (match m with
   | [] => true
   | (b, _) :: rest => Memory.risesAbove rest b) &&
  m.all (fun c => decide (c.1 < Config.payloadMax))

/-- The octet of a cell: what was written to it, else the free value (R50, R64; log entry 5). -/
def State.cell (s : State) (a : Nat) : Byte :=
  (Memory.read s.payload a).getD (Config.unspecifiedCell a s.cycle)

/-- `MemWrite(PAYLOAD, a, 8, v)` on the state. The store has no cell at or above `PAYLOAD_MAX` (R60), so
such a write faults (log entry 9). -/
def storePayload (s : State) (a : Nat) (v : Byte) : Result :=
  if a < Config.payloadMax then .next { s with payload := Memory.write s.payload a v }
  else .fault (.payloadIndex a)

/-- The payload read port (R66): `pl_rdata` for the address `a`, from the cells as earlier cycles left
them (R79). At or above `out_payload_count` it is unspecified (R50, U3; log entry 6). -/
def State.plRead (s : State) (a : Half) : Byte :=
  if a.toNat < s.out.payloadCount.toNat then s.cell a.toNat
  else Config.unspecifiedCell a.toNat s.cycle

/-- The output port `pl_rdata` in the current cycle (R44, R66). -/
def State.plRdata (s : State) : Byte :=
  s.plRead s.pins.plRaddr

/-- `[PAYLOAD[0], ..., PAYLOAD[n-1]]` (R183). -/
def State.payloadBytes (s : State) (n : Nat) : List Byte :=
  (List.range n).map s.cell

/-! ### The In-Flight Frame -/

/-- The "frame_reset" column of R21. -/
def frameResetValue : Frame :=
  { frameType := none
    dstAddr := none
    srcAddr := none
    length := 0#16
    headerCrcRunning := Config.hcrcSeed
    headerCrcReceived := none
    headerCrcValid := none
    payloadCount := 0#16
    dataCrcRunning := Config.dcrcSeed
    dataCrcMsb := none
    dataCrcLsb := none
    valid := none
    error := none
    startTime := 0#64
    endTime := 0#64 }

/-- `frame_reset()` (R36): every In-Flight Frame register, and nothing else. -/
def frameReset (s : State) : State :=
  { s with frame := frameResetValue }

/-- The record of a frame whose `valid` is `v` and whose payload is `bytes` (R183). -/
def recordOf (v : Bool) (f : Frame) (bytes : List Byte) : Record :=
  { kind := kindOf f.error f.length
    error := f.error
    valid := v
    frameType := f.frameType
    frameTypeName := nameOf f.frameType
    dst := f.dstAddr
    src := f.srcAddr
    length := f.length
    headerCrc := f.headerCrcReceived
    headerCrcValid := f.headerCrcValid
    dataBytes := bytes
    dataCrcMsb := f.dataCrcMsb
    dataCrcLsb := f.dataCrcLsb
    dataCrc := joinDataCrc f.dataCrcMsb f.dataCrcLsb
    startTime := f.startTime
    endTime := f.endTime }

/-- `emit` (R183) of the In-Flight Frame the state holds; nothing where `valid` is absent (R182). -/
def emit (s : State) : Option Record :=
  s.frame.valid.map (fun v => recordOf v s.frame (s.payloadBytes s.frame.payloadCount.toNat))

/-- The output record registers that hold a record (R42). The octets of `data_bytes` are not copied. -/
def latch (r : Record) : OutRegs :=
  { kind := r.kind.code
    error := errorCode r.error
    frameValid := r.valid
    typeName := r.frameTypeName.id
    frameType := r.frameType
    dst := r.dst
    src := r.src
    length := r.length
    headerCrc := r.headerCrc
    headerCrcValid := r.headerCrcValid
    payloadCount := BitVec.ofNat 16 r.dataBytes.length
    dataCrcMsb := r.dataCrcMsb
    dataCrcLsb := r.dataCrcLsb
    dataCrc := r.dataCrc
    startTime := r.startTime
    endTime := r.endTime }

/-- The three writes finalize makes before it emits (R180). -/
def stampVerdict (err : Option FrameError) (ts : Time) (s : State) : State :=
  { s with frame := { s.frame with valid := some (validFlag err), error := err, endTime := ts } }

/-- The record finalize emits (R180): that of the frame with the three writes applied. -/
def finalRecord (err : Option FrameError) (ts : Time) (s : State) : Record :=
  let f := (stampVerdict err ts s).frame
  recordOf (validFlag err) f (s.payloadBytes f.payloadCount.toNat)

/-- `finalize` (R180), the hardware's taking of an exception (R210): it saves the whole In-Flight Frame
as the record, raises `out_valid`, resets the frame and goes to `Idle` with both indices 0. There is no
operation that returns from it: the machine is in `Idle` when the event ends (R211). -/
def finalize (err : Option FrameError) (ts : Time) (s : State) : State :=
  { frameReset s with
    state := .idle
    hdrIdx := 0#3
    dataIdx := 0#17
    outValid := true
    out := latch (finalRecord err ts s)
    returned := .record (finalRecord err ts s) }

/-- `raise <error>(ts)` (R12): finalize with that error. -/
def raiseError (err : FrameError) (ts : Time) (s : State) : State :=
  finalize (some err) ts s

/-! ### What every event does -/

/-- `last_time <- ts`, in every event and every state (R137). -/
def takeTime (s : State) : State :=
  { s with lastTime := s.ts }

/-- `return none` (R12) with `out_valid <- 0` (R43). -/
def returnNone (s : State) : State :=
  { s with outValid := false, returned := .nothing }

/-- The result of a sub-function of R95 is handed to its caller (log entry 3). -/
def returnValue (v : Returned) (s : State) : State :=
  { s with returned := v }

/-- The end of a clock cycle: its pins are consumed (log entry 1). -/
def endCycle (s : State) : State :=
  { s with inputs := s.inputs.tail, cycle := s.cycle + 1 }

/-- An outcome with its next state, if there is one, carried through `f`. -/
def onNext (f : State → State) (r : Result) : Result :=
  match r with
  | .next s => .next (f s)
  | .fault e => .fault e
  | .refused e => .refused e

end Sys2Proof.Machine
end

