-- ==== Sys2Proof/Machine/Cycle.lean ====
section
/-! DEFINITION. The two cycle-level operations: RESET (spec/70_reset_and_hazards.md R230) and HOLD (R232). -/

namespace Sys2Proof.Machine

/-- RESET (R230): every register to its reset value; the `PAYLOAD` cells are not written and there is no
record. The event of the cycle, if one is offered, is dropped (R243). -/
def execReset (s : State) : Result :=
  .next { frameReset s with
    state := .idle
    hdrIdx := 0#3
    dataIdx := 0#17
    lastTime := 0#64
    outValid := false
    out := OutRegs.atReset
    returned := .nothing }

/-- HOLD (R232): `out_valid` falls and nothing else changes. -/
def execHold (s : State) : Result :=
  .next (returnNone s)

end Sys2Proof.Machine
end

