-- ==== Sys2Proof/Machine/Data.lean ====
section
/-! DEFINITION. The payload accumulator: D_TIMEOUT (spec/45_rx_data.md R170), D_PAYLOAD (R171), D_CRC1
(R172) and D_CRC2 (R173). -/

namespace Sys2Proof.Machine

/-- D_TIMEOUT (R170). -/
def execDTimeout (s : State) : Result :=
  .next (raiseError .timeout s.ts { takeTime s with dataIdx := 0#17 })

/-- What the octets of `Data` share: the octet is folded into the accumulator (R121), the position becomes
`idx`, and `f` is the frame with the octet accounted for. -/
def dataStep (octet : Byte) (idx : Idx17) (f : Frame) (s : State) : State :=
  { takeTime s with
    dataIdx := idx
    frame := { f with dataCrcRunning := crc16 octet s.frame.dataCrcRunning } }

/-- D_PAYLOAD (R171): one payload octet, stored at `data_idx[15:0]`. -/
def execDPayload (octet : Byte) (s : State) : Result :=
  storePayload
    (returnNone (dataStep octet (s.dataIdx + 1#17)
      { s.frame with payloadCount := s.frame.payloadCount + 1#16 } s))
    (payloadIndex s.dataIdx) octet

/-- D_CRC1 (R172): the first trailing octet. -/
def execDCrc1 (octet : Byte) (s : State) : Result :=
  .next (returnNone (dataStep octet (s.dataIdx + 1#17) { s.frame with dataCrcMsb := some octet } s))

/-- D_CRC2 (R173): the second trailing octet and the data check. -/
def execDCrc2 (octet : Byte) (s : State) : Result :=
  let d := crc16 octet s.frame.dataCrcRunning
  let s' := dataStep octet 0#17 { s.frame with dataCrcLsb := some octet } s
  if dataGood d then .next (finalize none s.ts s')
  else .next (raiseError .badDataCrc s.ts s')

end Sys2Proof.Machine
end

