-- ==== Sys2Proof/Machine/Functions.lean ====
section
/-! DEFINITION. The six sub-functions of spec/30_encoding.md R95 as operations of their own: each does what
its rule says to the registers and hands its result to its caller, as `State.returned` (log entry 3). -/

namespace Sys2Proof.Machine

/-- crc8 (R110): no register is read or written. -/
def execCrc8 (byte crcIn : Byte) (s : State) : Result :=
  .next (returnValue (.octet (crc8 byte crcIn)) s)

/-- crc16 (R120): no register is read or written. -/
def execCrc16 (byte : Byte) (crcIn : Half) (s : State) : Result :=
  .next (returnValue (.word (crc16 byte crcIn)) s)

/-- name_of (R130). -/
def execNameOf (code : Option Byte) (s : State) : Result :=
  .next (returnValue (.name (nameOf code)) s)

/-- frame_reset (R36): it returns nothing. -/
def execFrameReset (s : State) : Result :=
  .next (returnValue .nothing (frameReset s))

/-- finalize (R180). -/
def execFinalize (err : Option FrameError) (ts : Time) (s : State) : Result :=
  .next (finalize err ts s)

/-- emit (R183): the record of the In-Flight Frame. A frame whose `valid` is absent is outside its domain
(R182, U4; log entry 10). -/
def execEmit (s : State) : Result :=
  match emit s with
  | some r => .next (returnValue (.record r) s)
  | none => .refused .emitWithoutValid

end Sys2Proof.Machine
end

