-- ==== Sys2Proof/Machine/Header.lean ====
section
/-! DEFINITION. The header parser: H_TIMEOUT (spec/44_rx_header.md R155), H_TYPE to H_LENLO (R156 to R160)
and H_CRC (R161). -/

namespace Sys2Proof.Machine

/-- What the six header octets share: the octet is folded into the accumulator (R111), the position moves
on, and `f` is the frame with the octet stored. -/
def headerStep (octet : Byte) (next : BitVec 3) (f : Frame) (s : State) : State :=
  { takeTime s with
    hdrIdx := next
    frame := { f with headerCrcRunning := crc8 octet s.frame.headerCrcRunning } }

/-- H_TIMEOUT (R155). -/
def execHTimeout (s : State) : Result :=
  .next (raiseError .timeout s.ts { takeTime s with hdrIdx := 0#3 })

/-- H_TYPE (R156): header octet 0. -/
def execHType (octet : Byte) (s : State) : Result :=
  .next (returnNone (headerStep octet 1#3 { s.frame with frameType := some octet } s))

/-- H_DST (R157): header octet 1. -/
def execHDst (octet : Byte) (s : State) : Result :=
  .next (returnNone (headerStep octet 2#3 { s.frame with dstAddr := some octet } s))

/-- H_SRC (R158): header octet 2. -/
def execHSrc (octet : Byte) (s : State) : Result :=
  .next (returnNone (headerStep octet 3#3 { s.frame with srcAddr := some octet } s))

/-- H_LENHI (R159): header octet 3. -/
def execHLenhi (octet : Byte) (s : State) : Result :=
  .next (returnNone (headerStep octet 4#3 { s.frame with length := lengthHigh octet } s))

/-- H_LENLO (R160): header octet 4. -/
def execHLenlo (octet : Byte) (s : State) : Result :=
  .next (returnNone (headerStep octet 5#3 { s.frame with length := lengthLow s.frame.length octet } s))

/-- The three register writes of H_CRC before its test (R161). -/
def headerCheckStep (octet : Byte) (s : State) : State :=
  headerStep octet 0#3
    { s.frame with
      headerCrcReceived := some octet
      headerCrcValid := some (headerGood (crc8 octet s.frame.headerCrcRunning)) } s

/-- The entry to `Data` (R161): the data CRC is seeded and the position is 0. -/
def enterData (s : State) : State :=
  { s with
    state := .data
    dataIdx := 0#17
    frame := { s.frame with dataCrcRunning := Config.dcrcSeed } }

/-- H_CRC (R161): header octet 5 and the three-way exit. The check comes before the length test (R206). -/
def execHCrc (octet : Byte) (s : State) : Result :=
  let h := crc8 octet s.frame.headerCrcRunning
  let s' := headerCheckStep octet s
  if headerGood h = false then .next (raiseError .badHeaderCrc s.ts s')
  else if s.frame.length = 0#16 then .next (finalize none s.ts s')
  else .next (returnNone (enterData s'))

end Sys2Proof.Machine
end

