-- ==== Sys2Proof/Machine/Idle.lean ====
section
/-! DEFINITION. The operations of `Idle`: I_START (spec/43_rx_sync.md R140) and I_NOISE (R141). -/

namespace Sys2Proof.Machine

/-- Every event taken in `Idle` resets the frame and records `start_time` (R36, R37). -/
def idleEvent (s : State) : State :=
  returnNone { takeTime s with frame := { frameResetValue with startTime := s.ts } }

/-- I_START (R140): the first preamble octet. -/
def execIStart (s : State) : Result :=
  .next { idleEvent s with state := .preamble }

/-- I_NOISE (R141): any other octet; its value plays no part. -/
def execINoise (_octet : Byte) (s : State) : Result :=
  .next (idleEvent s)

end Sys2Proof.Machine
end

