-- ==== Sys2Proof/Machine/Preamble.lean ====
section
/-! DEFINITION. The operations of `Preamble`: P_TIMEOUT (spec/43_rx_sync.md R143), P_SYNC (R144), P_REPEAT
(R145) and P_ABANDON (R146). -/

namespace Sys2Proof.Machine

/-- P_TIMEOUT (R143). -/
def execPTimeout (s : State) : Result :=
  .next (raiseError .timeout s.ts (takeTime s))

/-- P_SYNC (R144): the second preamble octet. -/
def execPSync (s : State) : Result :=
  .next (returnNone { takeTime s with
    state := .header
    hdrIdx := 0#3
    frame := { s.frame with headerCrcRunning := Config.hcrcSeed } })

/-- P_REPEAT (R145): another `0x55`; `start_time` stays. -/
def execPRepeat (s : State) : Result :=
  .next (returnNone (takeTime s))

/-- P_ABANDON (R146): the attempt ends without a record. -/
def execPAbandon (_octet : Byte) (s : State) : Result :=
  .next (returnNone { frameReset (takeTime s) with state := .idle })

end Sys2Proof.Machine
end

