-- ==== Sys2Proof/Machine/Dispatch.lean ====
section
/-! DEFINITION. The dispatch of an operation to its meaning, one arm per row of spec/opcode_table.json. -/

namespace Sys2Proof.Machine

def exec (i : Instr) (s : State) : Host.Outcome State Fault Refusal :=
  match i with
  -- cycle level
  | .reset => Sys2Proof.Machine.execReset s
  | .hold => Sys2Proof.Machine.execHold s
  -- Idle
  | .iStart => Sys2Proof.Machine.execIStart s
  | .iNoise octet => Sys2Proof.Machine.execINoise octet s
  -- Preamble
  | .pTimeout => Sys2Proof.Machine.execPTimeout s
  | .pSync => Sys2Proof.Machine.execPSync s
  | .pRepeat => Sys2Proof.Machine.execPRepeat s
  | .pAbandon octet => Sys2Proof.Machine.execPAbandon octet s
  -- Header
  | .hTimeout => Sys2Proof.Machine.execHTimeout s
  | .hType octet => Sys2Proof.Machine.execHType octet s
  | .hDst octet => Sys2Proof.Machine.execHDst octet s
  | .hSrc octet => Sys2Proof.Machine.execHSrc octet s
  | .hLenhi octet => Sys2Proof.Machine.execHLenhi octet s
  | .hLenlo octet => Sys2Proof.Machine.execHLenlo octet s
  | .hCrc octet => Sys2Proof.Machine.execHCrc octet s
  -- Data
  | .dTimeout => Sys2Proof.Machine.execDTimeout s
  | .dPayload octet => Sys2Proof.Machine.execDPayload octet s
  | .dCrc1 octet => Sys2Proof.Machine.execDCrc1 octet s
  | .dCrc2 octet => Sys2Proof.Machine.execDCrc2 octet s
  -- the sub-functions of R95
  | .crc8 byte crcIn => Sys2Proof.Machine.execCrc8 byte crcIn s
  | .crc16 byte crcIn => Sys2Proof.Machine.execCrc16 byte crcIn s
  | .nameOf code => Sys2Proof.Machine.execNameOf code s
  | .frameReset => Sys2Proof.Machine.execFrameReset s
  | .finalize err ts => Sys2Proof.Machine.execFinalize err ts s
  | .emit => Sys2Proof.Machine.execEmit s

end Sys2Proof.Machine
end

