-- ==== Sys2Proof/Machine/Fetch.lean ====
section
/-! DEFINITION. How an operation is selected: the dispatch word formed from the pins and the registers
(spec/30_encoding.md R90 to R92), the cycle around the decoded operation, and the state in which a given
word is the next one formed. -/

namespace Sys2Proof.Machine

/-- The dispatch word of the current cycle (R90), from the cycle's pins and the registers as they stand
before the clock edge. -/
def State.word (s : State) : BitVec 16 :=
  packWord s.pins.rst s.pins.inValid s.trip s.state.code s.posClass s.octet

/-- One clock cycle (R138, R245): the operation its dispatch word selects, and the end of the cycle. A word
that matches no row is refused and is no no-op (R94, U1). -/
def runCycle (s : State) : Result :=
  match decode s.word with
  | .ok i => onNext endCycle (exec i s)
  | .error _ => .refused (.unmatchedWord s.word)

/-- The pins of a cycle whose word has the `rst`, `in_valid` and `octet` of `w`. An event's timestamp is
`ts` and its threshold is 0. -/
def pinsOfWord (w : BitVec 16) (ts : Time) : Pins :=
  { rst := wordRst w
    inValid := wordInValid w
    inOctet := wordOctet w
    inTs := ts
    cfgTimeout := 0#64
    plRaddr := 0#16 }

/-- The state with the pins put before the pins to come, as those of the current cycle. -/
def State.offer (s : State) (p : Pins) : State :=
  { s with inputs := p :: s.inputs.tail }

/-- The timing fields that make the trip bit of a cycle outside `Idle` the one wanted: a gap of 1 against a
threshold of 0 trips, a gap of 0 does not (R148). -/
def placeTrip (trip : Bool) (w : BitVec 16) (s : State) : State :=
  if trip then State.offer { s with lastTime := 0#64 } (pinsOfWord w 1#64)
  else s.offer (pinsOfWord w s.lastTime)

/-- The position fields that make the position class the one wanted: `hdr_idx` in `Header`; in `Data` a
`length` of at least 1 and `data_idx` below it, at it, one beyond it, or (classes 3 to 7, which no
trace reaches) two beyond it (R91). -/
def placePosition (st : RxState) (pos : BitVec 3) (s : State) : State :=
  match st with
  | .idle => { s with state := .idle }
  | .preamble => { s with state := .preamble }
  | .header => { s with state := .header, hdrIdx := pos }
  | .data =>
    let len : Half := if s.frame.length = 0#16 then 1#16 else s.frame.length
    let idx : Idx17 :=
      if pos = 0#3 then 0#17
      else if pos = 1#3 then len.setWidth 17
      else if pos = 2#3 then len.setWidth 17 + 1#17
      else len.setWidth 17 + 2#17
    { s with state := .data, dataIdx := idx, frame := { s.frame with length := len } }

/-- The state in which the next dispatch word is `w`, but for bits the matching row marks `x`
(log entry 2). A cycle that carries no event needs its pins only. -/
def placeWord (s : State) (w : BitVec 16) : State :=
  if wordRst w || !wordInValid w then s.offer (pinsOfWord w s.lastTime)
  else
    let st := RxState.ofCode (wordState w)
    placeTrip (wordTrip w && st != .idle) w (placePosition st (wordPos w) s)

/-- The dispatch word a row of spec/opcode_table.json numbers: its bits above `nbits` are 0. -/
def tableWord (nbits w : Nat) : BitVec 16 :=
  BitVec.ofNat 16 (w % 2 ^ nbits)

end Sys2Proof.Machine
end

