-- ==== Sys2Proof/Machine/Step.lean ====
section
/-! DEFINITION. One step of the machine: one clock cycle (spec/00_scope.md R7). -/

namespace Sys2Proof.Machine

/-- One clock cycle of the CORE. -/
def step (s : State) : Host.Outcome State Fault Refusal :=
  runCycle s

/-- `s` with the pins and the sequencing registers under which the next dispatch word is that of the table
word `w` (log entry 2). -/
def State.withFetchWord (s : State) (nbits w : Nat) : State :=
  placeWord s (tableWord nbits w)

end Sys2Proof.Machine
end

