-- ==== Sys2Proof/Machine/Process.lean ====
section
/-! DEFINITION. The event level (spec/00_scope.md R7): the function `process` of spec/43_rx_sync.md R138,
written as a case analysis on the state and with no dispatch word. It is a second description of the
machine, which the step of Sys2Proof.Machine.Step is to agree with. -/

namespace Sys2Proof.Machine

/-- The refusal of a register value no trace reaches, under the name the step gives it (R94). -/
def unreached (s : State) : Result :=
  .refused (.unmatchedWord s.word)

/-- `Header` without a trip (R138): one operation per position. -/
def processHeader (octet : Byte) (s : State) : Result :=
  match s.hdrIdx.toNat with
  | 0 => execHType octet s
  | 1 => execHDst octet s
  | 2 => execHSrc octet s
  | 3 => execHLenhi octet s
  | 4 => execHLenlo octet s
  | 5 => execHCrc octet s
  | _ => unreached s

/-- `Data` without a trip (R138): by the place of `data_idx` against `length`, at 17 bits. -/
def processData (octet : Byte) (s : State) : Result :=
  let idx := s.dataIdx.toNat
  let len := s.frame.length.toNat
  if idx < len then execDPayload octet s
  else if idx = len then execDCrc1 octet s
  else if idx = len + 1 then execDCrc2 octet s
  else unreached s

/-- `process` (R138) on the event the current pins carry. -/
def process (s : State) : Result :=
  match s.state with
  | .idle => if s.octet = Config.preamble1 then execIStart s else execINoise s.octet s
  | .preamble =>
    if s.trip then execPTimeout s
    else if s.octet = Config.preamble2 then execPSync s
    else if s.octet = Config.preamble1 then execPRepeat s
    else execPAbandon s.octet s
  | .header => if s.trip then execHTimeout s else processHeader s.octet s
  | .data => if s.trip then execDTimeout s else processData s.octet s

end Sys2Proof.Machine
end

