-- ==== Sys2Proof/Machine/Registers.lean ====
section
/-! DEFINITION. The registers as the numbered list of spec/10_state.md R21 and R42: `x[i]` of
spec/00_scope.md R11, the value of each register as a number, its columns "reset" and "frame_reset", and
the table of writers of R48. -/

namespace Sys2Proof.Machine

/-- The registers, in the order of R21 and then of R42. -/
inductive Reg where
  | state
  | hdrIdx
  | dataIdx
  | lastTime
  | frameTypeV
  | frameType
  | dstAddrV
  | dstAddr
  | srcAddrV
  | srcAddr
  | length
  | headerCrcRunning
  | headerCrcReceivedV
  | headerCrcReceived
  | headerCrcValidV
  | headerCrcValid
  | payloadCount
  | dataCrcRunning
  | dataCrcMsbV
  | dataCrcMsb
  | dataCrcLsbV
  | dataCrcLsb
  | validV
  | valid
  | error
  | startTime
  | endTime
  | outValid
  | outKind
  | outError
  | outFrameValid
  | outTypeName
  | outFrameTypeV
  | outFrameType
  | outDstV
  | outDst
  | outSrcV
  | outSrc
  | outLength
  | outHeaderCrcV
  | outHeaderCrc
  | outHeaderCrcValidV
  | outHeaderCrcValid
  | outPayloadCount
  | outDataCrcMsbV
  | outDataCrcMsb
  | outDataCrcLsbV
  | outDataCrcLsb
  | outDataCrcV
  | outDataCrc
  | outStartTime
  | outEndTime
  deriving DecidableEq, Repr

/-- The value of a presence bit (R11). -/
def presenceNat {α : Type} (x : Option α) : Nat :=
  (presence x).toNat

/-- The value register of an optional octet or word: 0 when absent (R11). -/
def optNat {w : Nat} (x : Option (BitVec w)) : Nat :=
  (x.map BitVec.toNat).getD 0

/-- The value register of an optional bit: 0 when absent (R11). -/
def optBit (x : Option Bool) : Nat :=
  (x.map Bool.toNat).getD 0

/-- `x[i]` (R11): the value of a register as an unsigned number (R9). -/
def State.readReg (s : State) : Reg → Nat
  | .state => s.state.code.toNat
  | .hdrIdx => s.hdrIdx.toNat
  | .dataIdx => s.dataIdx.toNat
  | .lastTime => s.lastTime.toNat
  | .frameTypeV => presenceNat s.frame.frameType
  | .frameType => optNat s.frame.frameType
  | .dstAddrV => presenceNat s.frame.dstAddr
  | .dstAddr => optNat s.frame.dstAddr
  | .srcAddrV => presenceNat s.frame.srcAddr
  | .srcAddr => optNat s.frame.srcAddr
  | .length => s.frame.length.toNat
  | .headerCrcRunning => s.frame.headerCrcRunning.toNat
  | .headerCrcReceivedV => presenceNat s.frame.headerCrcReceived
  | .headerCrcReceived => optNat s.frame.headerCrcReceived
  | .headerCrcValidV => presenceNat s.frame.headerCrcValid
  | .headerCrcValid => optBit s.frame.headerCrcValid
  | .payloadCount => s.frame.payloadCount.toNat
  | .dataCrcRunning => s.frame.dataCrcRunning.toNat
  | .dataCrcMsbV => presenceNat s.frame.dataCrcMsb
  | .dataCrcMsb => optNat s.frame.dataCrcMsb
  | .dataCrcLsbV => presenceNat s.frame.dataCrcLsb
  | .dataCrcLsb => optNat s.frame.dataCrcLsb
  | .validV => presenceNat s.frame.valid
  | .valid => optBit s.frame.valid
  | .error => (errorCode s.frame.error).toNat
  | .startTime => s.frame.startTime.toNat
  | .endTime => s.frame.endTime.toNat
  | .outValid => s.outValid.toNat
  | .outKind => s.out.kind.toNat
  | .outError => s.out.error.toNat
  | .outFrameValid => s.out.frameValid.toNat
  | .outTypeName => s.out.typeName.toNat
  | .outFrameTypeV => presenceNat s.out.frameType
  | .outFrameType => optNat s.out.frameType
  | .outDstV => presenceNat s.out.dst
  | .outDst => optNat s.out.dst
  | .outSrcV => presenceNat s.out.src
  | .outSrc => optNat s.out.src
  | .outLength => s.out.length.toNat
  | .outHeaderCrcV => presenceNat s.out.headerCrc
  | .outHeaderCrc => optNat s.out.headerCrc
  | .outHeaderCrcValidV => presenceNat s.out.headerCrcValid
  | .outHeaderCrcValid => optBit s.out.headerCrcValid
  | .outPayloadCount => s.out.payloadCount.toNat
  | .outDataCrcMsbV => presenceNat s.out.dataCrcMsb
  | .outDataCrcMsb => optNat s.out.dataCrcMsb
  | .outDataCrcLsbV => presenceNat s.out.dataCrcLsb
  | .outDataCrcLsb => optNat s.out.dataCrcLsb
  | .outDataCrcV => presenceNat s.out.dataCrc
  | .outDataCrc => optNat s.out.dataCrc
  | .outStartTime => s.out.startTime.toNat
  | .outEndTime => s.out.endTime.toNat

/-- The "reset" column of R21; the `out_*` registers reset to 0 (R42, R43). -/
def Reg.resetValue : Reg → Nat
  | .headerCrcRunning => 0xFF
  | .dataCrcRunning => 0xFFFF
  | _ => 0

/-- The "frame_reset" column of R21; `none` stands for its "-". -/
def Reg.frameResetValue : Reg → Option Nat
  | .state => none
  | .hdrIdx => none
  | .dataIdx => none
  | .lastTime => none
  | .frameTypeV => some 0
  | .frameType => some 0
  | .dstAddrV => some 0
  | .dstAddr => some 0
  | .srcAddrV => some 0
  | .srcAddr => some 0
  | .length => some 0
  | .headerCrcRunning => some 0xFF
  | .headerCrcReceivedV => some 0
  | .headerCrcReceived => some 0
  | .headerCrcValidV => some 0
  | .headerCrcValid => some 0
  | .payloadCount => some 0
  | .dataCrcRunning => some 0xFFFF
  | .dataCrcMsbV => some 0
  | .dataCrcMsb => some 0
  | .dataCrcLsbV => some 0
  | .dataCrcLsb => some 0
  | .validV => some 0
  | .valid => some 0
  | .error => some 0
  | .startTime => some 0
  | .endTime => some 0
  | _ => none

/-- The In-Flight Frame registers, rows 4 to 26 of R21. -/
def frameRegs : List Reg :=
  [ .frameTypeV, .frameType, .dstAddrV, .dstAddr, .srcAddrV, .srcAddr, .length, .headerCrcRunning,
    .headerCrcReceivedV, .headerCrcReceived, .headerCrcValidV, .headerCrcValid, .payloadCount,
    .dataCrcRunning, .dataCrcMsbV, .dataCrcMsb, .dataCrcLsbV, .dataCrcLsb, .validV, .valid, .error,
    .startTime, .endTime ]

/-- The record registers of R42, `out_valid` apart. -/
def outRegs : List Reg :=
  [ .outKind, .outError, .outFrameValid, .outTypeName, .outFrameTypeV, .outFrameType, .outDstV, .outDst,
    .outSrcV, .outSrc, .outLength, .outHeaderCrcV, .outHeaderCrc, .outHeaderCrcValidV, .outHeaderCrcValid,
    .outPayloadCount, .outDataCrcMsbV, .outDataCrcMsb, .outDataCrcLsbV, .outDataCrcLsb, .outDataCrcV,
    .outDataCrc, .outStartTime, .outEndTime ]

/-- The registers of R21 rows 0 to 3 and 27. -/
def sequencingRegs : List Reg :=
  [ .state, .hdrIdx, .dataIdx, .lastTime, .outValid ]

/-- Every register, in the order of R21 and R42. -/
def allRegs : List Reg :=
  [ .state, .hdrIdx, .dataIdx, .lastTime ] ++ frameRegs ++ [ .outValid ] ++ outRegs

/-- The row number of a register (R21). -/
def Reg.index (r : Reg) : Nat :=
  allRegs.idxOf r

/-- The columns of R48: the registers an operation may change. "R" (reset by the `frame_reset()` inside the
operation) and "W" both count. RESET writes everything; HOLD writes `out_valid` (R232). -/
def writtenRegs : Instr → List Reg
  | .reset => allRegs
  | .hold => [ .outValid ]
  | .iStart => [ .state, .lastTime, .outValid ] ++ frameRegs
  | .iNoise _ => [ .lastTime, .outValid ] ++ frameRegs
  | .pTimeout => [ .state, .hdrIdx, .dataIdx, .lastTime, .outValid ] ++ frameRegs ++ outRegs
  | .pSync => [ .state, .hdrIdx, .lastTime, .headerCrcRunning, .outValid ]
  | .pRepeat => [ .lastTime, .outValid ]
  | .pAbandon _ => [ .state, .lastTime, .outValid ] ++ frameRegs
  | .hTimeout => [ .state, .hdrIdx, .dataIdx, .lastTime, .outValid ] ++ frameRegs ++ outRegs
  | .hType _ => [ .hdrIdx, .lastTime, .frameTypeV, .frameType, .headerCrcRunning, .outValid ]
  | .hDst _ => [ .hdrIdx, .lastTime, .dstAddrV, .dstAddr, .headerCrcRunning, .outValid ]
  | .hSrc _ => [ .hdrIdx, .lastTime, .srcAddrV, .srcAddr, .headerCrcRunning, .outValid ]
  | .hLenhi _ => [ .hdrIdx, .lastTime, .length, .headerCrcRunning, .outValid ]
  | .hLenlo _ => [ .hdrIdx, .lastTime, .length, .headerCrcRunning, .outValid ]
  | .hCrc _ => [ .state, .hdrIdx, .dataIdx, .lastTime, .outValid ] ++ frameRegs ++ outRegs
  | .dTimeout => [ .state, .hdrIdx, .dataIdx, .lastTime, .outValid ] ++ frameRegs ++ outRegs
  | .dPayload _ => [ .dataIdx, .lastTime, .payloadCount, .dataCrcRunning, .outValid ]
  | .dCrc1 _ => [ .dataIdx, .lastTime, .dataCrcRunning, .dataCrcMsbV, .dataCrcMsb, .outValid ]
  | .dCrc2 _ => [ .state, .dataIdx, .lastTime, .outValid ] ++ frameRegs ++ outRegs
  | .crc8 _ _ => []
  | .crc16 _ _ => []
  | .nameOf _ => []
  | .frameReset => frameRegs
  | .finalize _ _ => [ .state, .hdrIdx, .dataIdx, .outValid ] ++ frameRegs ++ outRegs
  | .emit => []

/-- The sum-type view of the sequencing registers (R47). -/
inductive Seq where
  | idle
  | preamble
  | header (i : BitVec 3)
  | data (j : Idx17)
  deriving DecidableEq, Repr

/-- The sum-type view of a state's (`state`, `hdr_idx`, `data_idx`) (R47). -/
def State.seq (s : State) : Seq :=
  match s.state with
  | .idle => .idle
  | .preamble => .preamble
  | .header => .header s.hdrIdx
  | .data => .data s.dataIdx

/-- The register values a sum-type value stands for (R47). -/
def Seq.regs : Seq → RxState × BitVec 3 × Idx17
  | .idle => (.idle, 0#3, 0#17)
  | .preamble => (.preamble, 0#3, 0#17)
  | .header i => (.header, i, 0#17)
  | .data j => (.data, 0#3, j)

end Sys2Proof.Machine
end

