-- ==== Sys2Proof/Machine/Trace.lean ====
section
/-! DEFINITION. The host's side of the wire: the trace notation of spec/30_encoding.md R100 and R101 as data,
its expansion into the pins of clock cycles, and the CRC octets a sender makes (R88). Not part of the
CORE, which only sees the pins. -/

namespace Sys2Proof.Machine

/-- The header CRC octet a sender makes (R88): the complement of the accumulator after octets 0 to 4. -/
def senderHeaderCrc (header : List Byte) : Byte :=
  ~~~ crc8Fold header Config.hcrcSeed

/-- The two data CRC octets a sender makes (R88): the complement of the accumulator, low octet first. -/
def senderDataCrc (data : List Byte) : List Byte :=
  let x : Half := ~~~ crc16Fold data Config.dcrcSeed
  [x.extractLsb' 0 8, x.extractLsb' 8 8]

/-- The length field of a payload (R85): its high octet and its low octet. -/
def lengthOctets (n : Nat) : List Byte :=
  let len : Half := BitVec.ofNat 16 n
  [len.extractLsb' 8 8, len.extractLsb' 0 8]

/-- Header octets 0 to 4 of a frame (R85). -/
def headerOctets (type dst src : Byte) (n : Nat) : List Byte :=
  [type, dst, src] ++ lengthOctets n

/-- The octets of a well-formed frame (R85, R101): no CRC octets follow an empty payload. -/
def frameOctets (type dst src : Byte) (data : List Byte) : List Byte :=
  let header := headerOctets type dst src data.length
  [Config.preamble1, Config.preamble2] ++ header ++ [senderHeaderCrc header] ++
    (if data = [] then [] else data ++ senderDataCrc data)

/-- Events that carry octets `gap` ticks apart, the first at `t`. -/
def eventTrain (octets : List Byte) (t gap cfg : Time) : List Pins :=
  match octets with
  | [] => []
  | b :: rest => Pins.event b t cfg :: eventTrain rest (t + gap) gap cfg

/-- A line of the trace notation (R100, R101). -/
inductive TraceLine where
  /-- `RST` -/
  | rst
  /-- `CFG timeout=<n>` -/
  | cfg (n : Time)
  /-- `OCT <hh> @<t>` -/
  | octAt (v : Byte) (t : Time)
  /-- `OCT <hh> +<d>` -/
  | octPlus (v : Byte) (d : Time)
  /-- `HOLD <n>` -/
  | hold (n : Nat)
  /-- `FRAME type= dst= src= data=[] @<t> step=<s>` -/
  | frame (type dst src : Byte) (data : List Byte) (t gap : Time)
  /-- `PREAMBLE @<t> step=<s>` -/
  | preamble (t gap : Time)
  /-- `NOISE [] @<t> step=<s>` -/
  | noise (octets : List Byte) (t gap : Time)
  deriving DecidableEq, Repr

/-- The timestamp of the last event of a train, or `last` where the train is empty. -/
def lastStamp (last : Time) (train : List Pins) : Time :=
  (train.getLast?.map Pins.inTs).getD last

/-- The cycles one line stands for, with the threshold `cfg` and the previous event's timestamp `last`
in force, and the two values in force after it. -/
def TraceLine.cycles (cfg last : Time) : TraceLine → List Pins × Time × Time
  | .rst => ([Pins.resetCycle], cfg, last)
  | .cfg n => ([], n, last)
  | .octAt v t => ([Pins.event v t cfg], cfg, t)
  | .octPlus v d => ([Pins.event v (last + d) cfg], cfg, last + d)
  | .hold n => (List.replicate n Pins.quiet, cfg, last)
  | .frame type dst src data t gap =>
    let train := eventTrain (frameOctets type dst src data) t gap cfg
    (train, cfg, lastStamp last train)
  | .preamble t gap =>
    let train := eventTrain [Config.preamble1, Config.preamble2] t gap cfg
    (train, cfg, lastStamp last train)
  | .noise octets t gap =>
    let train := eventTrain octets t gap cfg
    (train, cfg, lastStamp last train)

/-- The cycles a trace stands for (R100). -/
def expandTrace (cfg last : Time) : List TraceLine → List Pins
  | [] => []
  | line :: rest =>
    let (pins, cfg', last') := line.cycles cfg last
    pins ++ expandTrace cfg' last' rest

end Sys2Proof.Machine
end

