-- ==== Sys2Proof/Safety.lean ====
section
/-! DEFINITION. What the claims call a good state: the invariants of spec/10_state.md R38 with the facts
beside them, what a record looks like (spec/46_finalize_emit.md R185 to R187, R192), and the host's
obligation on timestamps (spec/70_reset_and_hazards.md R237). -/

namespace Sys2Proof.Machine

/-- What R38 (d), (e), (g) and R163 say of a frame in `Header` at position `k`. -/
structure HeaderShape (f : Frame) (k : Nat) : Prop where
  range : k ≤ 5
  typeSeen : presence f.frameType = decide (1 ≤ k)
  dstSeen : presence f.dstAddr = decide (2 ≤ k)
  srcSeen : presence f.srcAddr = decide (3 ≤ k)
  lengthUnset : k ≤ 3 → f.length = 0#16
  lengthHigh : k = 4 → f.length.extractLsb' 0 8 = 0#8
  crcUnseen : f.headerCrcReceived = none ∧ f.headerCrcValid = none
  dataUnseen : f.payloadCount = 0#16 ∧ f.dataCrcRunning = Config.dcrcSeed ∧ f.dataCrcMsb = none ∧
    f.dataCrcLsb = none

/-- What R32, R38 (d), (e), (g) say of a frame in `Data` at position `j`. -/
structure DataShape (f : Frame) (j : Nat) : Prop where
  range : j ≤ f.length.toNat + 1
  lengthPositive : 1 ≤ f.length.toNat
  addressed : f.frameType.isSome ∧ f.dstAddr.isSome ∧ f.srcAddr.isSome
  crcSeen : f.headerCrcReceived.isSome ∧ f.headerCrcValid = some true
  countFollows : f.payloadCount.toNat = min j f.length.toNat
  msbSeen : presence f.dataCrcMsb = decide (j = f.length.toNat + 1)
  lsbUnseen : f.dataCrcLsb = none

/-- The invariant of the machine between events: R38, R23, R24, R50 and the form of the payload store. -/
structure Inv (s : State) : Prop where
  /-- the store keeps its canonical form (R60, R63) -/
  store : Memory.wf s.payload = true
  /-- outside `Header`, `hdr_idx` is 0 (R23) -/
  hdrIdle : s.state ≠ .header → s.hdrIdx = 0#3
  /-- outside `Data`, `data_idx` is 0 (R24) -/
  dataIdle : s.state ≠ .data → s.dataIdx = 0#17
  /-- R38 (c), R35 -/
  undecided : s.frame.valid = none ∧ s.frame.error = none ∧ s.frame.endTime = 0#64
  /-- R38 (f) -/
  resting : s.state = .idle ∨ s.state = .preamble →
    s.frame = { frameResetValue with startTime := s.frame.startTime }
  /-- R38 (a), (e), (g) in `Header` -/
  inHeader : s.state = .header → HeaderShape s.frame s.hdrIdx.toNat
  /-- R38 (b), (d), (e), (g) in `Data` -/
  inData : s.state = .data → DataShape s.frame s.dataIdx.toNat
  /-- every cell of the architectural payload has been written (R50) -/
  written : ∀ a, a < s.frame.payloadCount.toNat → (Memory.read s.payload a).isSome

/-- The header octets a frame has stored, in arrival order (R85): the first `k` of type, destination,
source, length high, length low. -/
def Frame.headerSoFar (f : Frame) (k : Nat) : List Byte :=
  [f.frameType.getD 0#8, f.dstAddr.getD 0#8, f.srcAddr.getD 0#8, f.length.extractLsb' 8 8,
    f.length.extractLsb' 0 8].take k

/-- The octets of `Data` a frame has stored, in arrival order: the payload and then the first trailing
octet, if it has come (R85). -/
def State.dataSoFar (s : State) : List Byte :=
  s.payloadBytes s.frame.payloadCount.toNat ++ s.frame.dataCrcMsb.toList

/-- The accumulators hold the CRCs of the octets stored so far, from their seeds (R111, R121). -/
structure CrcInv (s : State) : Prop where
  inHeader : s.state = .header →
    s.frame.headerCrcRunning = crc8Fold (s.frame.headerSoFar s.hdrIdx.toNat) Config.hcrcSeed
  inData : s.state = .data →
    crc8Fold (s.frame.headerSoFar 5 ++ s.frame.headerCrcReceived.toList) Config.hcrcSeed = Config.hcrcGood ∧
    s.frame.dataCrcRunning = crc16Fold s.dataSoFar Config.dcrcSeed

/-- Shape `PlainFrame` (R185). -/
def PlainShape (r : Record) : Prop :=
  r.kind = .plain ∧ r.error = none ∧ r.valid = true ∧ r.frameType.isSome ∧ r.dst.isSome ∧ r.src.isSome ∧
    r.length = 0#16 ∧ r.headerCrc.isSome ∧ r.headerCrcValid = some true ∧ r.dataBytes = [] ∧
    r.dataCrcMsb = none ∧ r.dataCrcLsb = none ∧ r.dataCrc = none

/-- Shape `DataFrame` (R186). -/
def DataFrameShape (r : Record) : Prop :=
  r.kind = .data ∧ r.error = none ∧ r.valid = true ∧ r.frameType.isSome ∧ r.dst.isSome ∧ r.src.isSome ∧
    1 ≤ r.length.toNat ∧ r.headerCrc.isSome ∧ r.headerCrcValid = some true ∧
    r.dataBytes.length = r.length.toNat ∧ r.dataCrcMsb.isSome ∧ r.dataCrcLsb.isSome ∧
    r.dataCrc = joinDataCrc r.dataCrcMsb r.dataCrcLsb

/-- Shape `MalformedFrame` (R187). -/
def MalformedShape (r : Record) : Prop :=
  r.kind = .malformed ∧ r.error.isSome ∧ r.valid = false

/-- The records a host can see (R185 to R187). -/
def RecordShape (r : Record) : Prop :=
  PlainShape r ∨ DataFrameShape r ∨ MalformedShape r

/-- How far an attempt has come, in octets taken since `Idle`. -/
def State.progress (s : State) : Nat :=
  match s.state with
  | .idle => 0
  | .preamble => 1
  | .header => 2 + s.hdrIdx.toNat
  | .data => 8 + s.dataIdx.toNat

/-- A cycle that carries an event: neither RESET nor HOLD (R93). -/
def Pins.carriesEvent (p : Pins) : Bool :=
  !p.rst && p.inValid

/-- How many of the next `n` cycles carry an event. -/
def State.eventsIn (s : State) (n : Nat) : Nat :=
  (s.inputs.take n).countP Pins.carriesEvent

/-- The events' timestamps never decrease (R237). -/
def stampsRise (last : Time) : List Pins → Bool
  | [] => true
  | p :: rest =>
    if p.carriesEvent then decide (last.toNat ≤ p.inTs.toNat) && stampsRise p.inTs rest
    else stampsRise last rest

/-- The host keeps its promise on timestamps from this cycle on (R237). -/
def HostMonotone (s : State) : Prop :=
  stampsRise s.lastTime s.inputs = true

/-! ### What a statement about one operation speaks of -/

/-- Every register but those listed reads as before. -/
def KeepsRegsBut (rs : List Reg) (s t : State) : Prop :=
  ∀ r, r ∉ rs → t.readReg r = s.readReg r

/-- Every cell of the payload store reads as before. -/
def KeepsCells (s t : State) : Prop :=
  ∀ a, Memory.read t.payload a = Memory.read s.payload a

/-- The model's own bookkeeping, the pins to come and the count of cycles, is as before. -/
def KeepsPins (s t : State) : Prop :=
  t.inputs = s.inputs ∧ t.cycle = s.cycle

/-- Every In-Flight Frame register but those listed reads its "frame_reset" column (R36). -/
def FrameIsResetBut (rs : List Reg) (t : State) : Prop :=
  ∀ r ∈ frameRegs, r ∉ rs → r.frameResetValue = some (t.readReg r)

/-- The octets of the first `n` payload cells, in order of index (R183). -/
def CellsAre (s : State) (n : Nat) (bytes : List Byte) : Prop :=
  bytes.length = n ∧ ∀ k, k < n → bytes[k]? = some (s.cell k)

/-- `r` is what emit makes of the frame `f`, whose verdict is `v` and whose payload is `bytes`, field by
field of R183; the 16-bit `data_crc` is that of R188. -/
structure RecordMaps (f : Frame) (v : Bool) (bytes : List Byte) (r : Record) : Prop where
  /-- `error` set makes a malformed record, whatever `length` is -/
  malformed : f.error.isSome → r.kind = .malformed
  plain : f.error = none → f.length = 0#16 → r.kind = .plain
  data : f.error = none → f.length ≠ 0#16 → r.kind = .data
  error : r.error = f.error
  valid : r.valid = v
  frameType : r.frameType = f.frameType
  frameTypeName : r.frameTypeName = nameOf f.frameType
  dst : r.dst = f.dstAddr
  src : r.src = f.srcAddr
  length : r.length = f.length
  headerCrc : r.headerCrc = f.headerCrcReceived
  headerCrcValid : r.headerCrcValid = f.headerCrcValid
  dataBytes : r.dataBytes = bytes
  dataCrcMsb : r.dataCrcMsb = f.dataCrcMsb
  dataCrcLsb : r.dataCrcLsb = f.dataCrcLsb
  dataCrcBoth : ∀ m l, f.dataCrcMsb = some m → f.dataCrcLsb = some l →
    ∃ d, r.dataCrc = some d ∧ d.toNat = m.toNat * 256 + l.toNat
  dataCrcAbsent : f.dataCrcMsb = none ∨ f.dataCrcLsb = none → r.dataCrc = none
  startTime : r.startTime = f.startTime
  endTime : r.endTime = f.endTime

/-- `r` is the record of the frame `f` with the three writes of finalize applied (R180): `valid`, `error` and
`end_time`. -/
def EmittedFrom (f : Frame) (bytes : List Byte) (err : Option FrameError) (ts : Time) (r : Record) : Prop :=
  RecordMaps { f with valid := some (decide (err = none)), error := err, endTime := ts } (decide (err = none)) bytes r

/-- The `out_*` registers hold the record `r`, register by register of R42. -/
def OutShows (t : State) (r : Record) : Prop :=
  t.readReg .outKind = r.kind.code.toNat ∧ t.readReg .outError = (errorCode r.error).toNat ∧
  t.readReg .outFrameValid = r.valid.toNat ∧ t.readReg .outTypeName = r.frameTypeName.id.toNat ∧
  t.readReg .outFrameTypeV = presenceNat r.frameType ∧ t.readReg .outFrameType = optNat r.frameType ∧
  t.readReg .outDstV = presenceNat r.dst ∧ t.readReg .outDst = optNat r.dst ∧
  t.readReg .outSrcV = presenceNat r.src ∧ t.readReg .outSrc = optNat r.src ∧
  t.readReg .outLength = r.length.toNat ∧
  t.readReg .outHeaderCrcV = presenceNat r.headerCrc ∧ t.readReg .outHeaderCrc = optNat r.headerCrc ∧
  t.readReg .outHeaderCrcValidV = presenceNat r.headerCrcValid ∧
  t.readReg .outHeaderCrcValid = optBit r.headerCrcValid ∧
  t.readReg .outPayloadCount = r.dataBytes.length ∧
  t.readReg .outDataCrcMsbV = presenceNat r.dataCrcMsb ∧ t.readReg .outDataCrcMsb = optNat r.dataCrcMsb ∧
  t.readReg .outDataCrcLsbV = presenceNat r.dataCrcLsb ∧ t.readReg .outDataCrcLsb = optNat r.dataCrcLsb ∧
  t.readReg .outDataCrcV = presenceNat r.dataCrc ∧ t.readReg .outDataCrc = optNat r.dataCrc ∧
  t.readReg .outStartTime = r.startTime.toNat ∧ t.readReg .outEndTime = r.endTime.toNat

/-- The output side of a state: `out_valid` says that the step returned a record, and then `out_*` hold it
(R43). -/
def OutputsAgree (t : State) : Prop :=
  (t.outValid = true ∧ ∃ r, t.returned = .record r ∧ OutShows t r) ∨
    (t.outValid = false ∧ t.returned = .nothing)

/-- `t` is `s` after finalize of the frame `f` with the verdict `err` at `ts` (R180): the record is made of
`f` and the payload cells of `s`, latched and returned, the frame is reset, and the machine is in `Idle`
with both indices 0. What finalize does not write is as in `s`, but for `last_time`, which its caller may
write. -/
def FinalizedAs (f : Frame) (err : Option FrameError) (ts : Time) (s t : State) : Prop :=
  (∃ r bytes, t.returned = .record r ∧ CellsAre s f.payloadCount.toNat bytes ∧ EmittedFrom f bytes err ts r ∧
    OutShows t r) ∧
  t.state = .idle ∧ t.hdrIdx = 0#3 ∧ t.dataIdx = 0#17 ∧ t.outValid = true ∧
  FrameIsResetBut [] t ∧ KeepsCells s t ∧ KeepsPins s t

/-- No record: `out_valid` is 0 and nothing is returned (R43). -/
def NoRecord (t : State) : Prop :=
  t.outValid = false ∧ t.returned = .nothing

/-- The start of an attempt is not after its last octet. -/
def TimesOrdered (s : State) : Prop :=
  s.state ≠ .idle → s.frame.startTime.toNat ≤ s.lastTime.toNat

/-- Row by row of R192: the presence of the fields of the record `r` that the operation `i` makes in the
state `s`. An operation that makes no record has no row. -/
def PresenceRow (s : State) (i : Instr) (r : Record) : Prop :=
  match i with
  | .pTimeout =>
    r.kind = .malformed ∧ r.error = some .timeout ∧ r.frameType = none ∧ r.dst = none ∧ r.src = none ∧
      r.length = 0#16 ∧ r.headerCrc = none ∧ r.headerCrcValid = none ∧ r.dataBytes = [] ∧ r.dataCrcMsb = none ∧
      r.dataCrcLsb = none ∧ r.dataCrc = none
  | .hTimeout =>
    r.kind = .malformed ∧ r.error = some .timeout ∧ r.frameType.isSome = decide (1 ≤ s.hdrIdx.toNat) ∧
      r.dst.isSome = decide (2 ≤ s.hdrIdx.toNat) ∧ r.src.isSome = decide (3 ≤ s.hdrIdx.toNat) ∧
      (s.hdrIdx.toNat ≤ 3 → r.length = 0#16) ∧ (s.hdrIdx.toNat = 4 → r.length.toNat % 256 = 0) ∧
      r.length = s.frame.length ∧ r.headerCrc = none ∧ r.headerCrcValid = none ∧ r.dataBytes = [] ∧
      r.dataCrcMsb = none ∧ r.dataCrcLsb = none ∧ r.dataCrc = none
  | .hCrc octet =>
    r.frameType.isSome ∧ r.dst.isSome ∧ r.src.isSome ∧ r.headerCrc = some octet ∧ r.dataBytes = [] ∧
      r.dataCrcMsb = none ∧ r.dataCrcLsb = none ∧ r.dataCrc = none ∧ r.length = s.frame.length ∧
      ((r.kind = .malformed ∧ r.error = some .badHeaderCrc ∧ r.headerCrcValid = some false) ∨
        (r.kind = .plain ∧ r.error = none ∧ r.headerCrcValid = some true ∧ r.length = 0#16))
  | .dTimeout =>
    r.kind = .malformed ∧ r.error = some .timeout ∧ r.frameType.isSome ∧ r.dst.isSome ∧ r.src.isSome ∧
      r.length = s.frame.length ∧ r.headerCrc.isSome ∧ r.headerCrcValid = some true ∧
      r.dataBytes.length = min s.dataIdx.toNat s.frame.length.toNat ∧
      r.dataCrcMsb.isSome = decide (s.dataIdx.toNat = s.frame.length.toNat + 1) ∧ r.dataCrcLsb = none ∧
      r.dataCrc = none
  | .dCrc2 octet =>
    r.frameType.isSome ∧ r.dst.isSome ∧ r.src.isSome ∧ r.length = s.frame.length ∧ 1 ≤ r.length.toNat ∧
      r.headerCrc.isSome ∧ r.headerCrcValid = some true ∧ r.dataBytes.length = r.length.toNat ∧
      r.dataCrcMsb.isSome ∧ r.dataCrcLsb = some octet ∧ r.dataCrc.isSome ∧
      ((r.kind = .malformed ∧ r.error = some .badDataCrc) ∨ (r.kind = .data ∧ r.error = none))
  | _ => False

/-- What the current cycle reports, row by row of R150: the shape and the error of its record, if it makes
one. -/
def State.ending (s : State) : Option (Kind × Option FrameError) :=
  if s.pins.carriesEvent = false then none
  else if s.trip then some (.malformed, some .timeout)
  else match s.state with
    | .idle => none
    | .preamble => none
    | .header =>
      if s.hdrIdx ≠ 5#3 then none
      else if crc8 s.octet s.frame.headerCrcRunning ≠ 0x55#8 then some (.malformed, some .badHeaderCrc)
      else if s.frame.length = 0#16 then some (.plain, none)
      else none
    | .data =>
      if s.dataIdx.toNat ≠ s.frame.length.toNat + 1 then none
      else if crc16 s.octet s.frame.dataCrcRunning = 0xF0B8#16 then some (.data, none)
      else some (.malformed, some .badDataCrc)

/-- `n` clock cycles, stopping at the first fault or refusal. -/
def runCycles (n : Nat) (s : State) : Result :=
  match n with
  | 0 => .next s
  | k + 1 =>
    match step s with
    | .next t => runCycles k t
    | .fault e => .fault e
    | .refused e => .refused e

/-- The operation map by its field columns (R93), in priority order: a second description of the decoder,
which uses no mask. `st` is 0 for `Idle`, 1 for `Preamble`, 2 for `Header` and 3 for `Data`. -/
def opByFields (rst inValid trip : Bool) (st pos : Nat) (octet : Byte) : Option Instr :=
  if rst then some .reset
  else if inValid = false then some .hold
  else if st = 0 then some (if octet = 0x55#8 then .iStart else .iNoise octet)
  else if st = 1 then
    some (if trip then .pTimeout else if octet = 0xFF#8 then .pSync else if octet = 0x55#8 then .pRepeat
      else .pAbandon octet)
  else if st = 2 then
    if trip then some .hTimeout
    else if pos = 0 then some (.hType octet)
    else if pos = 1 then some (.hDst octet)
    else if pos = 2 then some (.hSrc octet)
    else if pos = 3 then some (.hLenhi octet)
    else if pos = 4 then some (.hLenlo octet)
    else if pos = 5 then some (.hCrc octet)
    else none
  else if trip then some .dTimeout
  else if pos = 0 then some (.dPayload octet)
  else if pos = 1 then some (.dCrc1 octet)
  else if pos = 2 then some (.dCrc2 octet)
  else none

/-- The current cycle carries an event (R89, R93). -/
def State.hasEvent (s : State) : Bool :=
  s.pins.carriesEvent

/-- The five header octets and the received CRC octet of a record, all present (R85). -/
def Record.headerOctets (r : Record) : List Byte :=
  r.frameType.toList ++ r.dst.toList ++ r.src.toList ++
    [r.length.extractLsb' 8 8, r.length.extractLsb' 0 8]

end Sys2Proof.Machine
end

