-- ==== Sys2Proof/Certificates/Slice0/Obligations.lean ====
section
/-! DEFINITION. The statements for the provers. Each cites the rule of spec/ it formalises or rests on. -/

open Sys2Proof Sys2Proof.Machine

/-! ### The two cycle-level operations -/

/-- RESET (R230): every register at its "reset" column, no cell written, no record; a second RESET changes
nothing more; every word with `rst = 1` selects it, whatever the other fields. -/
def Obligations.ResetCompletes : Prop :=
  (∀ s : State, ∃ t, exec .reset s = .next t ∧ (∀ r : Reg, t.readReg r = r.resetValue) ∧ KeepsCells s t ∧
    KeepsPins s t ∧ t.returned = .nothing ∧ exec .reset t = .next t) ∧
  ∀ inValid trip st pos octet, decode (packWord true inValid trip st pos octet) = .ok .reset

/-- The reset state of the model is what RESET leaves, but for the payload cells, which RESET does not write
(R49), and the model's own bookkeeping of cycles. -/
def Obligations.ResetReachesResetState : Prop :=
  (∀ r : Reg, State.reset.readReg r = r.resetValue) ∧
  ∀ s : State, exec .reset s =
    .next { State.reset with payload := s.payload, inputs := s.inputs, cycle := s.cycle }

/-- HOLD (R232): `out_valid` falls and nothing else changes; every word with `rst = 0`, `in_valid = 0`
selects it, whatever the trip bit. -/
def Obligations.HoldCompletes : Prop :=
  (∀ s : State, ∃ t, exec .hold s = .next t ∧ NoRecord t ∧ KeepsRegsBut [.outValid] s t ∧ KeepsCells s t ∧
    KeepsPins s t) ∧
  ∀ trip st pos octet, decode (packWord false false trip st pos octet) = .ok .hold

/-! ### Idle -/

/-- I_START (R140). -/
def Obligations.IStartCompletes : Prop :=
  (∀ s : State, ∃ t, exec .iStart s = .next t ∧ t.state = .preamble ∧ t.frame.startTime = s.ts ∧
    t.lastTime = s.ts ∧ FrameIsResetBut [.startTime] t ∧ NoRecord t ∧
    KeepsRegsBut ([.state, .lastTime, .outValid] ++ frameRegs) s t ∧ KeepsCells s t ∧ KeepsPins s t) ∧
  ∀ trip pos, decode (packWord false true trip 0#2 pos 0x55#8) = .ok .iStart

/-- I_NOISE (R141). -/
def Obligations.INoiseCompletes : Prop :=
  (∀ (octet : Byte) (s : State), ∃ t, exec (.iNoise octet) s = .next t ∧ t.frame.startTime = s.ts ∧
    t.lastTime = s.ts ∧ FrameIsResetBut [.startTime] t ∧ NoRecord t ∧
    KeepsRegsBut ([.lastTime, .outValid] ++ frameRegs) s t ∧ KeepsCells s t ∧ KeepsPins s t) ∧
  ∀ trip pos octet, octet ≠ 0x55#8 → decode (packWord false true trip 0#2 pos octet) = .ok (.iNoise octet)

/-! ### Preamble -/

/-- P_TIMEOUT (R143): finalize with Timeout. From a good `Preamble` state the record has no field present and
no name. -/
def Obligations.PTimeoutCompletes : Prop :=
  (∀ s : State, ∃ t, exec .pTimeout s = .next t ∧ FinalizedAs s.frame (some .timeout) s.ts s t ∧
    t.lastTime = s.ts ∧
    (Inv s → s.state = .preamble →
      ∃ r, t.returned = .record r ∧ PresenceRow s .pTimeout r ∧ r.frameTypeName = .absent ∧
        r.startTime = s.frame.startTime ∧ r.endTime = s.ts)) ∧
  ∀ pos octet, decode (packWord false true true 1#2 pos octet) = .ok .pTimeout

/-- P_SYNC (R144). -/
def Obligations.PSyncCompletes : Prop :=
  (∀ s : State, ∃ t, exec .pSync s = .next t ∧ t.state = .header ∧ t.hdrIdx = 0#3 ∧
    t.frame.headerCrcRunning = 0xFF#8 ∧ t.lastTime = s.ts ∧ NoRecord t ∧
    KeepsRegsBut [.state, .hdrIdx, .headerCrcRunning, .lastTime, .outValid] s t ∧ KeepsCells s t ∧
    KeepsPins s t) ∧
  ∀ pos, decode (packWord false true false 1#2 pos 0xFF#8) = .ok .pSync

/-- P_REPEAT (R145): no register but `last_time` and `out_valid` changes, so `start_time` stays. -/
def Obligations.PRepeatCompletes : Prop :=
  (∀ s : State, ∃ t, exec .pRepeat s = .next t ∧ t.lastTime = s.ts ∧ NoRecord t ∧
    KeepsRegsBut [.lastTime, .outValid] s t ∧ KeepsCells s t ∧ KeepsPins s t) ∧
  ∀ pos, decode (packWord false true false 1#2 pos 0x55#8) = .ok .pRepeat

/-- P_ABANDON (R146): back to `Idle` with the frame reset, `start_time` too, and no record. -/
def Obligations.PAbandonCompletes : Prop :=
  (∀ (octet : Byte) (s : State), ∃ t, exec (.pAbandon octet) s = .next t ∧ t.state = .idle ∧
    t.lastTime = s.ts ∧ FrameIsResetBut [] t ∧ NoRecord t ∧
    KeepsRegsBut ([.state, .lastTime, .outValid] ++ frameRegs) s t ∧ KeepsCells s t ∧ KeepsPins s t) ∧
  ∀ pos octet, octet ≠ 0xFF#8 → octet ≠ 0x55#8 →
    decode (packWord false true false 1#2 pos octet) = .ok (.pAbandon octet)

/-! ### Header -/

/-- H_TIMEOUT (R155), with the fields its record has from a good `Header` state, by `hdr_idx`: those
are the spec's own inference (R163, "derived: from rules R155 to R160"). -/
def Obligations.HTimeoutCompletes : Prop :=
  (∀ s : State, ∃ t, exec .hTimeout s = .next t ∧ FinalizedAs s.frame (some .timeout) s.ts s t ∧
    t.lastTime = s.ts ∧
    (Inv s → s.state = .header → ∃ r, t.returned = .record r ∧ PresenceRow s .hTimeout r ∧ r.endTime = s.ts)) ∧
  ∀ pos octet, decode (packWord false true true 2#2 pos octet) = .ok .hTimeout

/-- H_TYPE, H_DST and H_SRC (R156, R157, R158): each stores its octet in its own register, folds it into the
header accumulator, and moves the position on. -/
def Obligations.HeaderFieldOctetsComplete : Prop :=
  (∀ (octet : Byte) (s : State), ∃ t, exec (.hType octet) s = .next t ∧ t.frame.frameType = some octet ∧
    t.frame.headerCrcRunning = crc8 octet s.frame.headerCrcRunning ∧ t.hdrIdx = 1#3 ∧ t.lastTime = s.ts ∧
    NoRecord t ∧
    KeepsRegsBut [.frameTypeV, .frameType, .headerCrcRunning, .hdrIdx, .lastTime, .outValid] s t ∧
    KeepsCells s t ∧ KeepsPins s t) ∧
  (∀ (octet : Byte) (s : State), ∃ t, exec (.hDst octet) s = .next t ∧ t.frame.dstAddr = some octet ∧
    t.frame.headerCrcRunning = crc8 octet s.frame.headerCrcRunning ∧ t.hdrIdx = 2#3 ∧ t.lastTime = s.ts ∧
    NoRecord t ∧
    KeepsRegsBut [.dstAddrV, .dstAddr, .headerCrcRunning, .hdrIdx, .lastTime, .outValid] s t ∧
    KeepsCells s t ∧ KeepsPins s t) ∧
  (∀ (octet : Byte) (s : State), ∃ t, exec (.hSrc octet) s = .next t ∧ t.frame.srcAddr = some octet ∧
    t.frame.headerCrcRunning = crc8 octet s.frame.headerCrcRunning ∧ t.hdrIdx = 3#3 ∧ t.lastTime = s.ts ∧
    NoRecord t ∧
    KeepsRegsBut [.srcAddrV, .srcAddr, .headerCrcRunning, .hdrIdx, .lastTime, .outValid] s t ∧
    KeepsCells s t ∧ KeepsPins s t) ∧
  ∀ octet, decode (packWord false true false 2#2 0#3 octet) = .ok (.hType octet) ∧
    decode (packWord false true false 2#2 1#3 octet) = .ok (.hDst octet) ∧
    decode (packWord false true false 2#2 2#3 octet) = .ok (.hSrc octet)

/-- H_LENHI (R159): `length` becomes the octet times 256, whatever it was. -/
def Obligations.HLenhiCompletes : Prop :=
  (∀ (octet : Byte) (s : State), ∃ t, exec (.hLenhi octet) s = .next t ∧
    t.frame.length.toNat = octet.toNat * 256 ∧
    t.frame.headerCrcRunning = crc8 octet s.frame.headerCrcRunning ∧ t.hdrIdx = 4#3 ∧ t.lastTime = s.ts ∧
    NoRecord t ∧ KeepsRegsBut [.length, .headerCrcRunning, .hdrIdx, .lastTime, .outValid] s t ∧
    KeepsCells s t ∧ KeepsPins s t) ∧
  ∀ octet, decode (packWord false true false 2#2 3#3 octet) = .ok (.hLenhi octet)

/-- H_LENLO (R160): the octet is added to `length`, with no carry after an H_LENHI, so that the two octets
make the length, high octet first. -/
def Obligations.HLenloCompletes : Prop :=
  (∀ (octet : Byte) (s : State), ∃ t, exec (.hLenlo octet) s = .next t ∧
    (s.frame.length.toNat + octet.toNat < 65536 → t.frame.length.toNat = s.frame.length.toNat + octet.toNat) ∧
    (s.frame.length.toNat % 256 = 0 →
      t.frame.length.toNat / 256 = s.frame.length.toNat / 256 ∧ t.frame.length.toNat % 256 = octet.toNat) ∧
    t.frame.headerCrcRunning = crc8 octet s.frame.headerCrcRunning ∧ t.hdrIdx = 5#3 ∧ t.lastTime = s.ts ∧
    NoRecord t ∧ KeepsRegsBut [.length, .headerCrcRunning, .hdrIdx, .lastTime, .outValid] s t ∧
    KeepsCells s t ∧ KeepsPins s t) ∧
  (∀ (hi lo : Byte) (s : State), ∃ t u, exec (.hLenhi hi) s = .next t ∧ exec (.hLenlo lo) t = .next u ∧
    u.frame.length.toNat = hi.toNat * 256 + lo.toNat) ∧
  ∀ octet, decode (packWord false true false 2#2 4#3 octet) = .ok (.hLenlo octet)

/-- H_CRC (R161): the three writes, then the check, then the length test. Exactly one octet passes, the
complement of the accumulator. -/
def Obligations.HCrcCompletes : Prop :=
  (∀ (octet : Byte) (s : State), ∃ t, exec (.hCrc octet) s = .next t ∧ t.lastTime = s.ts ∧
    let h := crc8 octet s.frame.headerCrcRunning
    let f : Frame :=
      { s.frame with
        headerCrcReceived := some octet
        headerCrcRunning := h
        headerCrcValid := some (decide (h = 0x55#8)) }
    (h = 0x55#8 ↔ octet = ~~~ s.frame.headerCrcRunning) ∧
    (h ≠ 0x55#8 → FinalizedAs f (some .badHeaderCrc) s.ts s t) ∧
    (h = 0x55#8 → s.frame.length = 0#16 → FinalizedAs f none s.ts s t) ∧
    (h = 0x55#8 → s.frame.length ≠ 0#16 →
      t.state = .data ∧ t.hdrIdx = 0#3 ∧ t.dataIdx = 0#17 ∧ t.frame.dataCrcRunning = 0xFFFF#16 ∧
      t.frame.headerCrcReceived = some octet ∧ t.frame.headerCrcRunning = 0x55#8 ∧
      t.frame.headerCrcValid = some true ∧ NoRecord t ∧
      KeepsRegsBut [.state, .hdrIdx, .dataIdx, .lastTime, .headerCrcRunning, .headerCrcReceivedV,
        .headerCrcReceived, .headerCrcValidV, .headerCrcValid, .dataCrcRunning, .outValid] s t ∧
      KeepsCells s t ∧ KeepsPins s t)) ∧
  ∀ octet, decode (packWord false true false 2#2 5#3 octet) = .ok (.hCrc octet)

/-! ### Data -/

/-- D_TIMEOUT (R170), with the fields its record has from a good `Data` state, by `data_idx`. -/
def Obligations.DTimeoutCompletes : Prop :=
  (∀ s : State, ∃ t, exec .dTimeout s = .next t ∧ FinalizedAs s.frame (some .timeout) s.ts s t ∧
    t.lastTime = s.ts ∧
    (Inv s → s.state = .data → ∃ r, t.returned = .record r ∧ PresenceRow s .dTimeout r ∧ r.endTime = s.ts)) ∧
  ∀ pos octet, decode (packWord false true true 3#2 pos octet) = .ok .dTimeout

/-- D_PAYLOAD (R171) below `length`, where `data_idx = payload_count`: the octet is appended to the payload.
The cell written is the one at `data_idx`, at most 65534; every other cell reads as before. -/
def Obligations.DPayloadCompletes : Prop :=
  (∀ (octet : Byte) (s : State), s.dataIdx.toNat < s.frame.length.toNat →
    s.frame.payloadCount.toNat = s.dataIdx.toNat →
    ∃ t, exec (.dPayload octet) s = .next t ∧
      Memory.read t.payload s.dataIdx.toNat = some octet ∧
      (∀ a, a ≠ s.dataIdx.toNat → Memory.read t.payload a = Memory.read s.payload a) ∧
      t.payloadBytes t.frame.payloadCount.toNat = s.payloadBytes s.frame.payloadCount.toNat ++ [octet] ∧
      t.frame.payloadCount.toNat = s.frame.payloadCount.toNat + 1 ∧
      t.frame.dataCrcRunning = crc16 octet s.frame.dataCrcRunning ∧
      t.dataIdx.toNat = s.dataIdx.toNat + 1 ∧ t.lastTime = s.ts ∧ NoRecord t ∧
      KeepsRegsBut [.payloadCount, .dataCrcRunning, .dataIdx, .lastTime, .outValid] s t ∧ KeepsPins s t) ∧
  (∀ s : State, s.state = .data → s.hasEvent = true → s.trip = false →
    (decode s.word = .ok (.dPayload s.octet) ↔ s.dataIdx.toNat < s.frame.length.toNat)) ∧
  ∀ octet, decode (packWord false true false 3#2 0#3 octet) = .ok (.dPayload octet)

/-- The MODEL's own stop (log entry 9): D_PAYLOAD faults exactly where its index is 65535, which the payload
store does not have (spec/20_memory.md R60, R63: cells 0 to 65534); there the step never dispatches it from a
good state. -/
def Obligations.DPayloadFaultsOutsideTheStore : Prop :=
  (∀ (octet : Byte) (s : State), s.dataIdx.toNat % 65536 = 65535 →
    exec (.dPayload octet) s = .fault (.payloadIndex 65535)) ∧
  (∀ (octet : Byte) (s : State), s.dataIdx.toNat % 65536 ≠ 65535 → ∃ t, exec (.dPayload octet) s = .next t) ∧
  ∀ (octet : Byte) (s : State), Inv s → decode s.word = .ok (.dPayload octet) → s.dataIdx.toNat % 65536 ≠ 65535

/-- D_CRC1 (R172): the octet is no payload, and `data_idx` goes to `length + 1`, up to 65536. -/
def Obligations.DCrc1Completes : Prop :=
  (∀ (octet : Byte) (s : State), ∃ t, exec (.dCrc1 octet) s = .next t ∧ t.frame.dataCrcMsb = some octet ∧
    t.frame.dataCrcRunning = crc16 octet s.frame.dataCrcRunning ∧
    (s.dataIdx.toNat = s.frame.length.toNat → t.dataIdx.toNat = s.frame.length.toNat + 1) ∧
    t.lastTime = s.ts ∧ NoRecord t ∧
    KeepsRegsBut [.dataCrcMsbV, .dataCrcMsb, .dataCrcRunning, .dataIdx, .lastTime, .outValid] s t ∧
    KeepsCells s t ∧ KeepsPins s t) ∧
  (∀ s : State, s.state = .data → s.hasEvent = true → s.trip = false →
    (decode s.word = .ok (.dCrc1 s.octet) ↔ s.dataIdx.toNat = s.frame.length.toNat)) ∧
  ∀ octet, decode (packWord false true false 3#2 1#3 octet) = .ok (.dCrc1 octet)

/-- D_CRC2 (the pseudocode of R173): the octet is stored and folded in, then the check decides. Its corner case
"exactly one second octet passes" is not stated (log entry 21). -/
def Obligations.DCrc2Completes : Prop :=
  (∀ (octet : Byte) (s : State), ∃ t, exec (.dCrc2 octet) s = .next t ∧ t.lastTime = s.ts ∧
    let d := crc16 octet s.frame.dataCrcRunning
    let f : Frame := { s.frame with dataCrcLsb := some octet, dataCrcRunning := d }
    (d = 0xF0B8#16 → FinalizedAs f none s.ts s t) ∧
    (d ≠ 0xF0B8#16 → FinalizedAs f (some .badDataCrc) s.ts s t)) ∧
  (∀ s : State, s.state = .data → s.hasEvent = true → s.trip = false →
    (decode s.word = .ok (.dCrc2 s.octet) ↔ s.dataIdx.toNat = s.frame.length.toNat + 1)) ∧
  ∀ octet, decode (packWord false true false 3#2 2#3 octet) = .ok (.dCrc2 octet)

/-! ### The sub-functions -/

/-- crc8 (R110): one read of the table, no register touched; with the corner cases of its rule. -/
def Obligations.Crc8Completes : Prop :=
  (∀ (byte crcIn : Byte) (s : State), ∃ t v, exec (.crc8 byte crcIn) s = .next t ∧ t.returned = .octet v ∧
    crc8Rom[(crcIn ^^^ byte).toNat]? = some v ∧ KeepsRegsBut [] s t ∧ KeepsCells s t ∧ KeepsPins s t) ∧
  (∀ b : Byte, crc8 b b = 0x00#8) ∧
  (∀ c : Byte, crc8Rom[c.toNat]? = some (crc8 0x00#8 c)) ∧
  (∀ b c b' c' : Byte, b ^^^ c = b' ^^^ c' → crc8 b c = crc8 b' c') ∧
  (∀ b : Byte, Function.Bijective (crc8 b)) ∧
  ∀ w byte crcIn, decode w ≠ .ok (.crc8 byte crcIn)

/-- crc16 (R120): one read of the table, no register touched; with the corner cases of its rule. -/
def Obligations.Crc16Completes : Prop :=
  (∀ (byte : Byte) (crcIn : Half) (s : State), ∃ t v e, exec (.crc16 byte crcIn) s = .next t ∧
    t.returned = .word v ∧ crc16Rom[(crcIn.extractLsb' 0 8 ^^^ byte).toNat]? = some e ∧
    v = (crcIn.extractLsb' 8 8).setWidth 16 ^^^ e ∧ v.extractLsb' 8 8 = e.extractLsb' 8 8 ∧
    KeepsRegsBut [] s t ∧ KeepsCells s t ∧ KeepsPins s t) ∧
  (∀ b : Byte, crc16 b (b.setWidth 16) = 0x0000#16) ∧
  (∀ b : Byte, Function.Bijective (crc16 b)) ∧
  ∀ w byte crcIn, decode w ≠ .ok (.crc16 byte crcIn)

/-- name_of (R130) with the ids of R131: no code fails. -/
def Obligations.NameOfCompletes : Prop :=
  (∀ (code : Option Byte) (s : State), ∃ t n, exec (.nameOf code) s = .next t ∧ t.returned = .name n ∧
    (code = none → n = .absent ∧ n.id = 15#4) ∧
    (∀ c, code = some c → c.toNat ≤ 7 → nameRom[c.toNat]? = some n ∧ n.id.toNat = c.toNat) ∧
    (∀ c, code = some c → 8 ≤ c.toNat → n = .unknownReserved ∧ n.id = 8#4) ∧
    KeepsRegsBut [] s t ∧ KeepsCells s t ∧ KeepsPins s t) ∧
  ∀ w code, decode w ≠ .ok (.nameOf code)

/-- frame_reset (R36): every In-Flight Frame register at its "frame_reset" column and nothing else changed. It
is idempotent, and it has run when an event in `Idle`, a P_ABANDON or a finalize ends. -/
def Obligations.FrameResetCompletes : Prop :=
  (∀ s : State, ∃ t, exec .frameReset s = .next t ∧ FrameIsResetBut [] t ∧ KeepsRegsBut frameRegs s t ∧
    KeepsCells s t ∧ KeepsPins s t ∧ t.returned = .nothing ∧ exec .frameReset t = .next t) ∧
  (∀ (octet : Byte) (s : State), ∃ t u v, exec .iStart s = .next t ∧ exec (.iNoise octet) s = .next u ∧
    exec (.pAbandon octet) s = .next v ∧ FrameIsResetBut [.startTime] t ∧ FrameIsResetBut [.startTime] u ∧
    FrameIsResetBut [] v) ∧
  (∀ (err : Option FrameError) (ts : Time) (s : State), ∃ t, exec (.finalize err ts) s = .next t ∧
    FrameIsResetBut [] t) ∧
  ∀ w, decode w ≠ .ok .frameReset

/-- finalize (R180): the record is that of the frame with `valid`, `error` and `end_time` written, then the
frame is reset; `last_time` is not touched. -/
def Obligations.FinalizeCompletes : Prop :=
  (∀ (err : Option FrameError) (ts : Time) (s : State), ∃ t, exec (.finalize err ts) s = .next t ∧
    FinalizedAs s.frame err ts s t ∧ t.lastTime = s.lastTime) ∧
  ∀ w err ts, decode w ≠ .ok (.finalize err ts)

/-- emit (R183), field by field, on every frame whose `valid` is present; it writes no register. -/
def Obligations.EmitCompletes : Prop :=
  (∀ (v : Bool) (s : State), s.frame.valid = some v →
    ∃ t r bytes, exec .emit s = .next t ∧ t.returned = .record r ∧
      CellsAre s s.frame.payloadCount.toNat bytes ∧ RecordMaps s.frame v bytes r ∧
      KeepsRegsBut [] s t ∧ KeepsCells s t ∧ KeepsPins s t) ∧
  ∀ w, decode w ≠ .ok .emit

/-- The MODEL's own stop (log entry 10): emit refuses a frame whose `valid` is absent, which
spec/46_finalize_emit.md R182 puts outside its domain (U4: refuse). -/
def Obligations.EmitRefusesWithoutValid : Prop :=
  ∀ s : State, s.frame.valid = none → exec .emit s = .refused .emitWithoutValid

/-! ### The step and the dispatch word -/

/-- A step runs the decoded operation on the state and then ends the cycle: its pins are consumed and the
count of cycles goes up. -/
def Obligations.StepRunsTheDecodedOperation : Prop :=
  ∀ (s : State) (i : Instr), decode s.word = .ok i →
    step s =
      match exec i s with
      | .next t => .next { t with inputs := t.inputs.tail, cycle := t.cycle + 1 }
      | .fault e => .fault e
      | .refused e => .refused e

/-- The dispatch word of a cycle (R90), bit field by bit field, with the position class of R91 and the trip
bit of R92. -/
def Obligations.DispatchWordLayout : Prop :=
  ∀ s : State, ∃ (trip : Bool) (pos : BitVec 3),
    s.word.toNat = s.pins.rst.toNat * 32768 + s.pins.inValid.toNat * 16384 + trip.toNat * 8192 +
      s.readReg .state * 2048 + pos.toNat * 256 + s.pins.inOctet.toNat ∧
    (s.state = .idle ∨ s.state = .preamble → pos = 0#3) ∧
    (s.state = .header → pos = s.hdrIdx) ∧
    (s.state = .data → s.dataIdx.toNat < s.frame.length.toNat → pos = 0#3) ∧
    (s.state = .data → s.dataIdx.toNat = s.frame.length.toNat → pos = 1#3) ∧
    (s.state = .data → s.dataIdx.toNat = s.frame.length.toNat + 1 → pos = 2#3) ∧
    (trip = true ↔ s.state ≠ .idle ∧ s.lastTime.toNat < s.pins.inTs.toNat ∧
      s.pins.cfgTimeout.toNat < s.pins.inTs.toNat - s.lastTime.toNat)

/-- The timeout at its boundaries (R148): a gap equal to the threshold does not trip, a timestamp that does not
advance never does. The rule is the spec's own inference ("derived: from rule R135"). -/
def Obligations.TripBoundaries : Prop :=
  (∀ s : State, s.ts.toNat ≤ s.lastTime.toNat → s.trip = false) ∧
  (∀ s : State, s.state ≠ .idle → s.lastTime.toNat ≤ s.ts.toNat →
    (s.trip = true ↔ s.cfgTimeout.toNat < s.ts.toNat - s.lastTime.toNat)) ∧
  (∀ s : State, s.state ≠ .idle → s.cfgTimeout = 0#64 → s.lastTime.toNat < s.ts.toNat → s.trip = true) ∧
  (∀ s : State, s.cfgTimeout.toNat = 2 ^ 64 - 1 → s.trip = false) ∧
  ∀ s : State, s.state = .idle → s.trip = false

/-- The operation map (R93): the masks and matches select what the field columns say, and two rows admit one
word only where the table's priority matters. -/
def Obligations.OperationMapFollowsItsFields : Prop :=
  (∀ rst inValid trip (st : BitVec 2) (pos : BitVec 3) octet,
    (decode (packWord rst inValid trip st pos octet)).toOption =
      opByFields rst inValid trip st.toNat pos.toNat octet) ∧
  ∀ w, ∀ r1 ∈ opTable, ∀ r2 ∈ opTable, r1.admits w = true → r2.admits w = true →
    r1.mnemonic = r2.mnemonic ∨
    (r1.mnemonic, r2.mnemonic) ∈ [("I_START", "I_NOISE"), ("I_NOISE", "I_START"), ("P_SYNC", "P_ABANDON"),
      ("P_ABANDON", "P_SYNC"), ("P_REPEAT", "P_ABANDON"), ("P_ABANDON", "P_REPEAT")]

/-- Exactly the words of R94 match no row, and such a word is refused by the step, not taken for a no-op. The
rule is the spec's own inference ("derived: from rules R91 and R93"); the refusal is the model's (log entry 8). -/
def Obligations.UnmatchedWordsAreRefused : Prop :=
  (∀ rst inValid trip (st : BitVec 2) (pos : BitVec 3) octet,
    (∃ e, decode (packWord rst inValid trip st pos octet) = .error e) ↔
      rst = false ∧ inValid = true ∧ trip = false ∧
        ((st = 2#2 ∧ 6 ≤ pos.toNat) ∨ (st = 3#2 ∧ 3 ≤ pos.toNat))) ∧
  ∀ (s : State) e, decode s.word = .error e → step s = .refused (.unmatchedWord s.word)

/-- Decode and encode agree on every well-formed operation that has a word, and exactly the dispatched
operations have one (R95). -/
def Obligations.DecodeEncodeAgree : Prop :=
  (∀ (i : Instr) (w : BitVec 16), i.wellFormed = true → encode i = some w → decode w = .ok i) ∧
  ∀ i : Instr, i.dispatched = true ↔ ∃ w, encode i = some w

/-- Every decoded operation is well formed and dispatched, and its own word lies in a row of the map that also
admits the word it came from. -/
def Obligations.DecodedOperationsAreWellFormed : Prop :=
  ∀ (w : BitVec 16) (i : Instr), decode w = .ok i →
    i.wellFormed = true ∧ i.dispatched = true ∧
      ∃ v r, encode i = some v ∧ r ∈ opTable ∧ r.mnemonic = i.mnemonic ∧ r.admits w = true ∧
        r.admits v = true

/-- A few words of spec/95_test_vectors.md decode to the operations it lists for them. -/
def Obligations.SampleWordsDecode : Prop :=
  decode 0xD110#16 = .ok .reset ∧ decode 0x4055#16 = .ok .iStart ∧ decode 0x4010#16 = .ok (.iNoise 0x10#8) ∧
  decode 0x48FF#16 = .ok .pSync ∧ decode 0x6801#16 = .ok .pTimeout ∧ decode 0x5573#16 = .ok (.hCrc 0x73#8) ∧
  decode 0x7300#16 = .ok .hTimeout ∧ decode 0x58AA#16 = .ok (.dPayload 0xAA#8) ∧
  decode 0x7A00#16 = .ok .dTimeout ∧ decode 0x5A56#16 = .ok (.dCrc2 0x56#8)

/-- The MODEL's placement of a word (log entry 2): the next step from the placed state runs exactly the
operation the word decodes to. -/
def Obligations.PlacedWordRuns : Prop :=
  ∀ (s : State) (w : BitVec 16) (i : Instr), decode w = .ok i →
    decode (s.withFetchWord 16 w.toNat).word = .ok i ∧
      step (s.withFetchWord 16 w.toNat) = onNext endCycle (exec i (s.withFetchWord 16 w.toNat))

/-- One event is one `process` step (R138): the dispatch by words is the case analysis of the event level, in
every state; `last_time` takes the event's timestamp (R137); and a record is returned, with `out_valid` raised,
exactly by the operations that call finalize. Where R138 has no arm (`hdr_idx` 6 or 7 in `Header`, `data_idx` above
`length + 1` in `Data`) both sides are the MODEL's own refusal (log entry 8). -/
def Obligations.StepOnAnEventIsProcess : Prop :=
  ∀ s : State, s.hasEvent = true →
    step s = onNext endCycle (process s) ∧
    ∀ t, step s = .next t →
      t.lastTime = s.ts ∧ (t.outValid = true ↔ ∃ r, t.returned = .record r) ∧
      ((∃ r, t.returned = .record r) ↔
        decode s.word = .ok .pTimeout ∨ decode s.word = .ok .hTimeout ∨ decode s.word = .ok .dTimeout ∨
        decode s.word = .ok (.dCrc2 s.octet) ∨
        (decode s.word = .ok (.hCrc s.octet) ∧
          (crc8 s.octet s.frame.headerCrcRunning ≠ 0x55#8 ∨ s.frame.length = 0#16)))

/-- A late octet's value plays no part (R139): the step is the same for every value of it, and reports Timeout
with the late octet's timestamp. -/
def Obligations.LateOctetIsIgnored : Prop :=
  ∀ (s : State) (p : Pins) (rest : List Pins) (b : Byte), s.inputs = p :: rest → s.hasEvent = true →
    s.trip = true →
    step { s with inputs := { p with inOctet := b } :: rest } = step s ∧
      ∃ t r, step s = .next t ∧ t.returned = .record r ∧ r.error = some .timeout ∧ r.endTime = p.inTs

/-! ### Invariants -/

/-- The invariants hold after reset. They are the spec's own inferences (R38, "derived: from those rules") and
the model's (log entry 22). -/
def Obligations.InvariantsHoldAtReset : Prop :=
  Inv State.reset ∧ CrcInv State.reset ∧ TimesOrdered State.reset

/-- The invariants of R38, with those of R23, R24, R32, R35, R50 and the form of the payload store, are kept by
every step from every state that has them. R38 is the spec's own inference ("derived: from those rules"). -/
def Obligations.InvariantIsKept : Prop :=
  ∀ s t : State, Inv s → step s = .next t → Inv t

/-- The running CRCs are those of the octets stored so far (R111, R121), and every step keeps that: an
inference of the model from those rules (log entry 22). -/
def Obligations.CrcInvariantIsKept : Prop :=
  ∀ s t : State, Inv s → CrcInv s → step s = .next t → CrcInv t

/-- Progress (R17): a good state always has a next state, whatever the host offers, and every run from reset
goes on, whatever its pins. -/
def Obligations.TheMachineNeverStops : Prop :=
  (∀ s : State, Inv s → ∃ t, step s = .next t) ∧
  ∀ (pins : List Pins) (n : Nat), ∃ t, runCycles n { State.reset with inputs := pins } = .next t ∧ Inv t

/-- In a good state the three sequencing registers carry no more than the sum type of R47, the spec's own inference
("derived: from rules R22, R23 and R24"). -/
def Obligations.SequencingIsTheSumType : Prop :=
  ∀ s : State, Inv s → s.seq.regs = (s.state, s.hdrIdx, s.dataIdx)

/-- A register changes only where R48 lists it, and only D_PAYLOAD changes a payload cell, the one at
`payload_count`. R48 is the spec's own inference. -/
def Obligations.RegistersChangeOnlyWhereListed : Prop :=
  ∀ (s t : State) (i : Instr), Inv s → decode s.word = .ok i → exec i s = .next t →
    KeepsRegsBut (writtenRegs i) s t ∧
    ∀ a, ((∃ octet, i = .dPayload octet) → a ≠ s.frame.payloadCount.toNat) →
      Memory.read t.payload a = Memory.read s.payload a

/-! ### Records -/

/-- `out_valid` is 1 exactly after a step that returned a record, and then the `out_*` registers hold it; in
every other cycle but a RESET they keep their values (R42, R43). -/
def Obligations.OutputsFollowTheRecord : Prop :=
  ∀ s t : State, step s = .next t →
    OutputsAgree t ∧ (s.pins.rst = false → t.outValid = false → ∀ r ∈ outRegs, t.readReg r = s.readReg r)

/-- The record registers are stable for the record cycle and the one after it (R240). -/
def Obligations.RecordPortsAreStable : Prop :=
  ∀ (s t u : State) (r : Record), step s = .next t → t.returned = .record r → step t = .next u →
    t.pins.rst = false → OutShows u r ∧ u.outValid = false

/-- Which endings are silent and which are reported (R150). -/
def Obligations.EndingsAreReported : Prop :=
  ∀ s t : State, Inv s → step s = .next t →
    match s.ending with
    | none => NoRecord t
    | some (k, e) => ∃ r, t.returned = .record r ∧ r.kind = k ∧ r.error = e

/-- The fields present in a record, by the operation that makes it (R192, the spec's own inference). -/
def Obligations.RecordsHaveTheirFields : Prop :=
  ∀ (s t : State) (i : Instr) (r : Record), Inv s → decode s.word = .ok i → exec i s = .next t →
    t.returned = .record r → PresenceRow s i r

/-- Every record has one of the three shapes, made by the operations the shapes name, and ends at the event
that finalized it (R185, R186, R187, the spec's own inferences). -/
def Obligations.RecordsHaveOneOfThreeShapes : Prop :=
  ∀ (s t : State) (i : Instr) (r : Record), Inv s → decode s.word = .ok i → exec i s = .next t →
    t.returned = .record r →
    r.startTime = s.frame.startTime ∧ r.endTime = s.ts ∧
      ((PlainShape r ∧ ∃ b, i = .hCrc b) ∨ (DataFrameShape r ∧ ∃ b, i = .dCrc2 b) ∨
        (MalformedShape r ∧
          (i = .pTimeout ∨ i = .hTimeout ∨ i = .dTimeout ∨ (∃ b, i = .hCrc b) ∨ ∃ b, i = .dCrc2 b)))

/-- Soundness of acceptance: a record without an error carries exactly the CRC octets a sender makes for its
header and its payload (R88, which the spec gives "from general knowledge", log entry 12), and as many payload
octets as its length says. -/
def Obligations.AcceptedRecordsCarryTheSendersCrc : Prop :=
  ∀ (s t : State) (r : Record), Inv s → CrcInv s → step s = .next t → t.returned = .record r →
    r.error = none →
    r.headerOctets.length = 5 ∧ r.headerCrc = some (senderHeaderCrc r.headerOctets) ∧
      r.dataBytes.length = r.length.toNat ∧
      (r.dataBytes ≠ [] → r.dataCrcMsb.toList ++ r.dataCrcLsb.toList = senderDataCrc r.dataBytes)

/-- The payload port shows the octets of the record in the cycle after it was made (R66). -/
def Obligations.PayloadPortShowsTheRecord : Prop :=
  ∀ (s t : State) (r : Record), Inv s → step s = .next t → t.returned = .record r →
    ∀ a : Half, a.toNat < r.dataBytes.length → r.dataBytes[a.toNat]? = some (t.plRead a)

/-- While the host keeps its timestamps from decreasing (R237), an attempt never starts after its last octet,
and no record ends before it starts. -/
def Obligations.TimesStayOrdered : Prop :=
  ∀ s t : State, TimesOrdered s → HostMonotone s → step s = .next t →
    TimesOrdered t ∧ HostMonotone t ∧
      ∀ r, t.returned = .record r → r.startTime.toNat ≤ r.endTime.toNat

/-! ### The whole machine -/

/-- In `Idle` no record is made, whatever arrives, and only an `0x55` leads out (R142, the spec's own inference
"derived: from rules R140 and R141"). -/
def Obligations.IdleIsSilent : Prop :=
  ∀ s t : State, s.state = .idle → step s = .next t →
    NoRecord t ∧
      (t.state = .idle ∨ (t.state = .preamble ∧ s.hasEvent = true ∧ s.octet = 0x55#8)) ∧
      (s.hasEvent = true → s.octet = 0x55#8 → t.state = .preamble)

/-- Resynchronization (R151): what a machine in `Idle` reports from there on depends on nothing that came
before. Two machines in `Idle`, offered the same cycles, report the same records for ever. The
rule is the spec's own inference ("what it does next depends on nothing that came before except through
`last_time`, which `Idle` does not read"). -/
def Obligations.IdleForgetsThePast : Prop :=
  ∀ (n : Nat) (s1 s2 t1 : State), Inv s1 → Inv s2 → s1.state = .idle → s2.state = .idle →
    s1.inputs = s2.inputs → runCycles (n + 1) s1 = .next t1 →
    ∃ t2, runCycles (n + 1) s2 = .next t2 ∧ t2.returned = t1.returned ∧ t2.outValid = t1.outValid ∧
      t2.seq = t1.seq

/-- A well-formed frame whose octets are spaced within the timeout, offered to a machine in `Idle`, is reported
as exactly one record, by its last octet, with its own fields, whatever came before (R85, R88, R151; R151 is
the spec's own inference, and R88 is "from general knowledge", log entry 12). -/
def Obligations.WellFormedFrameIsReported : Prop :=
  ∀ (s : State) (type dst src : Byte) (data : List Byte) (t0 gap cfg : Time) (rest : List Pins),
    Inv s → s.state = .idle → data.length ≤ 65535 → gap.toNat ≤ cfg.toNat →
    s.inputs = eventTrain (frameOctets type dst src data) t0 gap cfg ++ rest →
    (∀ k v, 1 ≤ k → k < (frameOctets type dst src data).length → runCycles k s = .next v → NoRecord v) ∧
    ∃ u r, runCycles (frameOctets type dst src data).length s = .next u ∧ u.returned = .record r ∧
      u.outValid = true ∧ u.state = .idle ∧ u.inputs = rest ∧
      r.kind = (if data = [] then .plain else .data) ∧ r.error = none ∧ r.valid = true ∧
      r.frameType = some type ∧ r.frameTypeName = nameOf (some type) ∧ r.dst = some dst ∧ r.src = some src ∧
      r.length.toNat = data.length ∧ r.headerCrcValid = some true ∧ r.dataBytes = data ∧
      r.startTime = t0 ∧
      r.endTime = t0 + gap * BitVec.ofNat 64 ((frameOctets type dst src data).length - 1)

/-- Cycles without an event change nothing but `out_valid`, however many there are (R232, R149): there is no
timer. -/
def Obligations.SilenceChangesNothing : Prop :=
  ∀ (n : Nat) (s : State), (∀ p ∈ s.inputs.take n, p.rst = false ∧ p.inValid = false) →
    ∃ t, runCycles n s = .next t ∧ KeepsRegsBut [.outValid] s t ∧ KeepsCells s t ∧
      t.inputs = s.inputs.drop n ∧ t.cycle = s.cycle + n ∧ (1 ≤ n → NoRecord t)

/-- The payload window (R241): from `Idle`, cell `k` keeps its octet through the next `8 + k` events. The
rule is the spec's own inference ("derived: from 43_rx_sync.md rule R138 and 45_rx_data.md rule R171"). -/
def Obligations.PayloadWindow : Prop :=
  ∀ (n k : Nat) (s u : State), Inv s → s.state = .idle → runCycles n s = .next u → s.eventsIn n ≤ 8 + k →
    Memory.read u.payload k = Memory.read s.payload k

/-! ### The CRC engines -/

/-- The sentinels (R115, R125): the only octet that ends a header at `0x55`, and the only pair that ends a
payload at `0xF0B8`, are the complement of the accumulator, low octet first. Both rules are the spec's own inferences;
the model departs from the corner case of R173 (log entry 21). -/
def Obligations.CrcSentinels : Prop :=
  (∀ b c : Byte, crc8 b c = 0x55#8 ↔ b = ~~~ c) ∧
  ∀ (d : Half) (m l : Byte), crc16 l (crc16 m d) = 0xF0B8#16 ↔
    m = (~~~ d).extractLsb' 0 8 ∧ l = (~~~ d).extractLsb' 8 8

/-- Any change of one octet changes the final accumulator (R116, R129, the spec's own inferences). -/
def Obligations.CrcDetectsOneChangedOctet : Prop :=
  (∀ (pre post : List Byte) (b b' seed : Byte), b ≠ b' →
    crc8Fold (pre ++ b :: post) seed ≠ crc8Fold (pre ++ b' :: post) seed) ∧
  ∀ (pre post : List Byte) (b b' : Byte) (seed : Half), b ≠ b' →
    crc16Fold (pre ++ b :: post) seed ≠ crc16Fold (pre ++ b' :: post) seed

/-- The tables are those of their bit-serial generators (R113, R123), and each step is its shift-XOR form on
all inputs (R114, R124). The spec gives all four "from general knowledge" (log entry 12). -/
def Obligations.CrcFormsAgree : Prop :=
  (∀ i : Byte, crc8Rom[i.toNat]? = some (crc8Serial i)) ∧
  (∀ i : Byte, crc16Rom[i.toNat]? = some (crc16Serial i)) ∧
  (∀ b c : Byte, crc8 b c = crc8Direct b c) ∧
  ∀ (b : Byte) (c : Half), crc16 b c = crc16Direct b c
end

