-- ==== Sys2Proof/Laws/Decode.lean ====
section
/-! SUPPORT. The fields of a dispatch word: a packed word gives back each of its fields (R90), and so does the
word of the current cycle. -/

namespace Sys2Proof

theorem packWord_bit (rst inValid trip : Bool) (st : BitVec 2) (pos : BitVec 3) (octet : Byte) (k : Nat)
    (hk : k < 16) :
    (packWord rst inValid trip st pos octet)[k] =
      if k < 8 then octet.getLsbD k
      else if k < 11 then pos.getLsbD (k - 8)
      else if k < 13 then st.getLsbD (k - 11)
      else if k = 13 then trip else if k = 14 then inValid else rst := by
  rw [← BitVec.getLsbD_eq_getElem]
  unfold packWord
  interval_cases k <;> simp only [BitVec.getLsbD_append] <;> simp [BitVec.getLsbD_eq_getElem]

@[simp] theorem wordRst_packWord (rst inValid trip : Bool) (st : BitVec 2) (pos : BitVec 3) (octet : Byte) :
    wordRst (packWord rst inValid trip st pos octet) = rst := by
  simp [wordRst, BitVec.getLsbD_eq_getElem, packWord_bit]

@[simp] theorem wordInValid_packWord (rst inValid trip : Bool) (st : BitVec 2) (pos : BitVec 3) (octet : Byte) :
    wordInValid (packWord rst inValid trip st pos octet) = inValid := by
  simp [wordInValid, BitVec.getLsbD_eq_getElem, packWord_bit]

@[simp] theorem wordTrip_packWord (rst inValid trip : Bool) (st : BitVec 2) (pos : BitVec 3) (octet : Byte) :
    wordTrip (packWord rst inValid trip st pos octet) = trip := by
  simp [wordTrip, BitVec.getLsbD_eq_getElem, packWord_bit]

@[simp] theorem wordState_packWord (rst inValid trip : Bool) (st : BitVec 2) (pos : BitVec 3) (octet : Byte) :
    wordState (packWord rst inValid trip st pos octet) = st := by
  unfold wordState
  ext k hk
  rw [BitVec.getElem_extractLsb', BitVec.getLsbD_eq_getElem (by omega), packWord_bit]
  interval_cases k <;> simp [BitVec.getLsbD_eq_getElem]

@[simp] theorem wordPos_packWord (rst inValid trip : Bool) (st : BitVec 2) (pos : BitVec 3) (octet : Byte) :
    wordPos (packWord rst inValid trip st pos octet) = pos := by
  unfold wordPos
  ext k hk
  rw [BitVec.getElem_extractLsb', BitVec.getLsbD_eq_getElem (by omega), packWord_bit]
  interval_cases k <;> simp [BitVec.getLsbD_eq_getElem]

@[simp] theorem wordOctet_packWord (rst inValid trip : Bool) (st : BitVec 2) (pos : BitVec 3) (octet : Byte) :
    wordOctet (packWord rst inValid trip st pos octet) = octet := by
  unfold wordOctet
  ext k hk
  rw [BitVec.getElem_extractLsb', BitVec.getLsbD_eq_getElem (by omega), packWord_bit]
  interval_cases k <;> simp [BitVec.getLsbD_eq_getElem]

/-- A word is packed from its fields (R90). -/
theorem packWord_fields (w : BitVec 16) :
    packWord (wordRst w) (wordInValid w) (wordTrip w) (wordState w) (wordPos w) (wordOctet w) = w := by
  ext k hk
  rw [packWord_bit]
  unfold wordRst wordInValid wordTrip wordState wordPos wordOctet
  interval_cases k <;> simp [BitVec.getLsbD_eq_getElem]

/-- Words are masked field by field. -/
theorem packWord_and (a b c : Bool) (d : BitVec 2) (e : BitVec 3) (f : Byte) (a' b' c' : Bool) (d' : BitVec 2)
    (e' : BitVec 3) (f' : Byte) :
    packWord a b c d e f &&& packWord a' b' c' d' e' f' =
      packWord (a && a') (b && b') (c && c') (d &&& d') (e &&& e') (f &&& f') := by
  ext k hk
  rw [BitVec.getElem_and, packWord_bit, packWord_bit, packWord_bit]
  split_ifs <;> simp

/-- A word has its fields and no others. -/
theorem packWord_inj (a b c : Bool) (d : BitVec 2) (e : BitVec 3) (f : Byte) (a' b' c' : Bool) (d' : BitVec 2)
    (e' : BitVec 3) (f' : Byte) :
    packWord a b c d e f = packWord a' b' c' d' e' f' ↔
      a = a' ∧ b = b' ∧ c = c' ∧ d = d' ∧ e = e' ∧ f = f' := by
  refine ⟨fun h => ?_, ?_⟩
  · have h1 := congrArg wordRst h
    have h2 := congrArg wordInValid h
    have h3 := congrArg wordTrip h
    have h4 := congrArg wordState h
    have h5 := congrArg wordPos h
    have h6 := congrArg wordOctet h
    simp only [wordRst_packWord, wordInValid_packWord, wordTrip_packWord, wordState_packWord, wordPos_packWord,
      wordOctet_packWord] at h1 h2 h3 h4 h5 h6
    exact ⟨h1, h2, h3, h4, h5, h6⟩
  · rintro ⟨rfl, rfl, rfl, rfl, rfl, rfl⟩
    rfl

/-- A word given by its fields matches a mask and a pattern given by theirs field by field (R93). -/
theorem admits_packWord (r : OpRow) (a b c : Bool) (d : BitVec 2) (e : BitVec 3) (f : Byte) :
    r.admits (packWord a b c d e f) =
      ((a && wordRst r.mask) == wordRst r.pattern && ((b && wordInValid r.mask) == wordInValid r.pattern) &&
        ((c && wordTrip r.mask) == wordTrip r.pattern) && (d &&& wordState r.mask == wordState r.pattern) &&
        (e &&& wordPos r.mask == wordPos r.pattern) && (f &&& wordOctet r.mask == wordOctet r.pattern)) := by
  unfold OpRow.admits
  conv_lhs => rw [← packWord_fields r.mask, ← packWord_fields r.pattern, packWord_and]
  rw [Bool.eq_iff_iff]
  simp only [beq_iff_eq, packWord_inj, Bool.and_eq_true, and_assoc]

/-- The decoder on a word given by its fields: the first row that admits it, built from its octet. -/
theorem decode_packWord (a b c : Bool) (d : BitVec 2) (e : BitVec 3) (f : Byte) :
    (decode (packWord a b c d e f)).toOption =
      opTable.findSome? (fun r => if r.admits (packWord a b c d e f) then some (r.build f) else none) := by
  unfold decode
  simp only [wordOctet_packWord]
  induction opTable with
  | nil => rfl
  | cons r rs ih =>
    by_cases h : r.admits (packWord a b c d e f) = true
    · simp [h, Except.toOption]
    · simp [h, ih]

namespace Machine

@[simp] theorem word_rst (s : State) : wordRst s.word = s.pins.rst := by simp [State.word]

@[simp] theorem word_inValid (s : State) : wordInValid s.word = s.pins.inValid := by simp [State.word]

@[simp] theorem word_trip (s : State) : wordTrip s.word = s.trip := by simp [State.word]

@[simp] theorem word_state (s : State) : wordState s.word = s.state.code := by simp [State.word]

@[simp] theorem word_pos (s : State) : wordPos s.word = s.posClass := by simp [State.word]

@[simp] theorem word_octet (s : State) : wordOctet s.word = s.octet := by simp [State.word]

end Machine

end Sys2Proof
end

