-- ==== Sys2Proof/Laws/Memory.lean ====
section
/-! SUPPORT. The payload store: a read after a write, and that every write keeps the canonical form. -/

namespace Sys2Proof.Machine

@[simp] theorem Memory.read_nil (a : Nat) : Memory.read [] a = none := rfl

theorem Memory.read_cons (c : Host.Cell) (m : Memory) (a : Nat) :
    Memory.read (c :: m) a = if a = c.1 then some c.2 else Memory.read m a := rfl

/-- A read of the cell just written gives the octet written. -/
@[simp] theorem Memory.read_write_same (m : Memory) (a : Nat) (v : Byte) :
    Memory.read (Memory.write m a v) a = some v := by
  induction m with
  | nil => simp [Memory.write, Memory.read]
  | cons c m ih =>
    obtain ⟨b, w⟩ := c
    by_cases h1 : a < b
    · simp [Memory.write, h1, Memory.read]
    · by_cases h2 : a = b
      · simp [Memory.write, h2, Memory.read]
      · simp [Memory.write, h1, h2, Memory.read, ih]

/-- A write leaves every other cell alone. -/
theorem Memory.read_write_other (m : Memory) {a b : Nat} (v : Byte) (h : b ≠ a) :
    Memory.read (Memory.write m a v) b = Memory.read m b := by
  induction m with
  | nil => simp [Memory.write, Memory.read, h]
  | cons c m ih =>
    obtain ⟨k, w⟩ := c
    by_cases h1 : a < k
    · simp [Memory.write, h1, Memory.read, h]
    · by_cases h2 : a = k
      · subst h2
        simp [Memory.write, Memory.read, h]
      · simp [Memory.write, h1, h2, Memory.read, ih]

/-- A write at an index above `low` keeps the cells rising above `low`. -/
theorem Memory.risesAbove_write (m : Memory) (low a : Nat) (v : Byte) (hm : m.risesAbove low = true)
    (ha : low < a) : (Memory.write m a v).risesAbove low = true := by
  induction m generalizing low with
  | nil => simp [Memory.write, Memory.risesAbove, ha]
  | cons c m ih =>
    obtain ⟨b, w⟩ := c
    simp only [Memory.risesAbove, Bool.and_eq_true, decide_eq_true_eq] at hm
    by_cases h1 : a < b
    · simp [Memory.write, h1, Memory.risesAbove, ha, hm.2]
    · by_cases h2 : a = b
      · subst h2
        simp [Memory.write, Memory.risesAbove, hm.1, hm.2]
      · simp only [Memory.write, h1, h2, if_false, Memory.risesAbove, Bool.and_eq_true, decide_eq_true_eq]
        exact ⟨hm.1, ih b hm.2 (by omega)⟩

/-- A write inside the store keeps every index inside the store. -/
theorem Memory.all_inside_write (m : Memory) (a : Nat) (v : Byte)
    (hm : m.all (fun c => decide (c.1 < Config.payloadMax)) = true) (ha : a < Config.payloadMax) :
    (Memory.write m a v).all (fun c => decide (c.1 < Config.payloadMax)) = true := by
  induction m with
  | nil => simp [Memory.write, ha]
  | cons c m ih =>
    obtain ⟨b, w⟩ := c
    simp only [List.all_cons, Bool.and_eq_true, decide_eq_true_eq] at hm
    by_cases h1 : a < b
    · simp [Memory.write, h1, ha, hm.1, hm.2]
    · by_cases h2 : a = b
      · subst h2
        simp [Memory.write, ha, hm.2]
      · simp only [Memory.write, h1, h2, if_false, List.all_cons, Bool.and_eq_true, decide_eq_true_eq]
        exact ⟨hm.1, ih hm.2⟩

/-- A write inside the store keeps the canonical form. -/
theorem Memory.wf_write (m : Memory) (a : Nat) (v : Byte) (hm : m.wf = true) (ha : a < Config.payloadMax) :
    (Memory.write m a v).wf = true := by
  simp only [Memory.wf, Bool.and_eq_true] at hm ⊢
  refine ⟨?_, Memory.all_inside_write m a v hm.2 ha⟩
  cases m with
  | nil => simp [Memory.write, Memory.risesAbove]
  | cons c m =>
    obtain ⟨b, w⟩ := c
    have hr : Memory.risesAbove m b = true := hm.1
    by_cases h1 : a < b
    · simp [Memory.write, h1, Memory.risesAbove, hr]
    · by_cases h2 : a = b
      · subst h2
        simp [Memory.write, hr]
      · simpa [Memory.write, h1, h2] using Memory.risesAbove_write m b a v hr (by omega)

/-- The store of the reset state has the canonical form. -/
theorem Memory.wf_reset : Memory.wf State.reset.payload = true := by
  decide

/-- A canonical store is determined by what its cells read as: below its first index nothing reads. -/
theorem Memory.read_below (m : Memory) (low a : Nat) (hm : m.risesAbove low = true) (ha : a ≤ low) :
    Memory.read m a = none := by
  induction m generalizing low with
  | nil => rfl
  | cons c m ih =>
    obtain ⟨b, w⟩ := c
    simp only [Memory.risesAbove, Bool.and_eq_true, decide_eq_true_eq] at hm
    have hne : a ≠ b := by omega
    simpa [Memory.read, hne] using ih b hm.2 (by omega)

/-- The octet of a written cell is what was written; the free value is not read. -/
theorem cell_of_read {s : State} {a : Nat} {v : Byte} (h : Memory.read s.payload a = some v) : s.cell a = v := by
  simp [State.cell, h]

/-- The octets of the first `n` cells, by position. -/
theorem payloadBytes_get (s : State) (n k : Nat) (h : k < n) : (s.payloadBytes n)[k]? = some (s.cell k) := by
  simp [State.payloadBytes, h]

@[simp] theorem payloadBytes_length (s : State) (n : Nat) : (s.payloadBytes n).length = n := by
  simp [State.payloadBytes]

/-- The payload with one octet appended is the payload of one cell more. -/
theorem payloadBytes_succ (s : State) (n : Nat) : s.payloadBytes (n + 1) = s.payloadBytes n ++ [s.cell n] := by
  simp [State.payloadBytes, List.range_succ]

end Sys2Proof.Machine
end

