-- ==== Sys2Proof/Laws/State.lean ====
section
/-! SUPPORT. One lemma per field per update of the state: each update of Machine/Ops.lean and of the families
read through each field, so that no proof unfolds a record update. -/

namespace Sys2Proof.Machine

variable (s : State)

@[simp] theorem takeTime_state : (takeTime s).state = s.state := rfl
@[simp] theorem takeTime_hdrIdx : (takeTime s).hdrIdx = s.hdrIdx := rfl
@[simp] theorem takeTime_dataIdx : (takeTime s).dataIdx = s.dataIdx := rfl
@[simp] theorem takeTime_lastTime : (takeTime s).lastTime = s.ts := rfl
@[simp] theorem takeTime_frame : (takeTime s).frame = s.frame := rfl
@[simp] theorem takeTime_payload : (takeTime s).payload = s.payload := rfl
@[simp] theorem takeTime_outValid : (takeTime s).outValid = s.outValid := rfl
@[simp] theorem takeTime_out : (takeTime s).out = s.out := rfl
@[simp] theorem takeTime_returned : (takeTime s).returned = s.returned := rfl
@[simp] theorem takeTime_inputs : (takeTime s).inputs = s.inputs := rfl
@[simp] theorem takeTime_cycle : (takeTime s).cycle = s.cycle := rfl
@[simp] theorem takeTime_pins : (takeTime s).pins = s.pins := rfl

@[simp] theorem returnNone_state : (returnNone s).state = s.state := rfl
@[simp] theorem returnNone_hdrIdx : (returnNone s).hdrIdx = s.hdrIdx := rfl
@[simp] theorem returnNone_dataIdx : (returnNone s).dataIdx = s.dataIdx := rfl
@[simp] theorem returnNone_lastTime : (returnNone s).lastTime = s.lastTime := rfl
@[simp] theorem returnNone_frame : (returnNone s).frame = s.frame := rfl
@[simp] theorem returnNone_payload : (returnNone s).payload = s.payload := rfl
@[simp] theorem returnNone_outValid : (returnNone s).outValid = false := rfl
@[simp] theorem returnNone_out : (returnNone s).out = s.out := rfl
@[simp] theorem returnNone_returned : (returnNone s).returned = .nothing := rfl
@[simp] theorem returnNone_inputs : (returnNone s).inputs = s.inputs := rfl
@[simp] theorem returnNone_cycle : (returnNone s).cycle = s.cycle := rfl
@[simp] theorem returnNone_pins : (returnNone s).pins = s.pins := rfl

@[simp] theorem returnValue_state (v : Returned) : (returnValue v s).state = s.state := rfl
@[simp] theorem returnValue_hdrIdx (v : Returned) : (returnValue v s).hdrIdx = s.hdrIdx := rfl
@[simp] theorem returnValue_dataIdx (v : Returned) : (returnValue v s).dataIdx = s.dataIdx := rfl
@[simp] theorem returnValue_lastTime (v : Returned) : (returnValue v s).lastTime = s.lastTime := rfl
@[simp] theorem returnValue_frame (v : Returned) : (returnValue v s).frame = s.frame := rfl
@[simp] theorem returnValue_payload (v : Returned) : (returnValue v s).payload = s.payload := rfl
@[simp] theorem returnValue_outValid (v : Returned) : (returnValue v s).outValid = s.outValid := rfl
@[simp] theorem returnValue_out (v : Returned) : (returnValue v s).out = s.out := rfl
@[simp] theorem returnValue_returned (v : Returned) : (returnValue v s).returned = v := rfl
@[simp] theorem returnValue_inputs (v : Returned) : (returnValue v s).inputs = s.inputs := rfl
@[simp] theorem returnValue_cycle (v : Returned) : (returnValue v s).cycle = s.cycle := rfl
@[simp] theorem returnValue_pins (v : Returned) : (returnValue v s).pins = s.pins := rfl

@[simp] theorem endCycle_state : (endCycle s).state = s.state := rfl
@[simp] theorem endCycle_hdrIdx : (endCycle s).hdrIdx = s.hdrIdx := rfl
@[simp] theorem endCycle_dataIdx : (endCycle s).dataIdx = s.dataIdx := rfl
@[simp] theorem endCycle_lastTime : (endCycle s).lastTime = s.lastTime := rfl
@[simp] theorem endCycle_frame : (endCycle s).frame = s.frame := rfl
@[simp] theorem endCycle_payload : (endCycle s).payload = s.payload := rfl
@[simp] theorem endCycle_outValid : (endCycle s).outValid = s.outValid := rfl
@[simp] theorem endCycle_out : (endCycle s).out = s.out := rfl
@[simp] theorem endCycle_returned : (endCycle s).returned = s.returned := rfl
@[simp] theorem endCycle_inputs : (endCycle s).inputs = s.inputs.tail := rfl
@[simp] theorem endCycle_cycle : (endCycle s).cycle = s.cycle + 1 := rfl

@[simp] theorem frameReset_state : (frameReset s).state = s.state := rfl
@[simp] theorem frameReset_hdrIdx : (frameReset s).hdrIdx = s.hdrIdx := rfl
@[simp] theorem frameReset_dataIdx : (frameReset s).dataIdx = s.dataIdx := rfl
@[simp] theorem frameReset_lastTime : (frameReset s).lastTime = s.lastTime := rfl
@[simp] theorem frameReset_frame : (frameReset s).frame = frameResetValue := rfl
@[simp] theorem frameReset_payload : (frameReset s).payload = s.payload := rfl
@[simp] theorem frameReset_outValid : (frameReset s).outValid = s.outValid := rfl
@[simp] theorem frameReset_out : (frameReset s).out = s.out := rfl
@[simp] theorem frameReset_returned : (frameReset s).returned = s.returned := rfl
@[simp] theorem frameReset_inputs : (frameReset s).inputs = s.inputs := rfl
@[simp] theorem frameReset_cycle : (frameReset s).cycle = s.cycle := rfl
@[simp] theorem frameReset_pins : (frameReset s).pins = s.pins := rfl

@[simp] theorem stampVerdict_state (err : Option FrameError) (ts : Time) : (stampVerdict err ts s).state = s.state := rfl
@[simp] theorem stampVerdict_hdrIdx (err : Option FrameError) (ts : Time) : (stampVerdict err ts s).hdrIdx = s.hdrIdx := rfl
@[simp] theorem stampVerdict_dataIdx (err : Option FrameError) (ts : Time) : (stampVerdict err ts s).dataIdx = s.dataIdx := rfl
@[simp] theorem stampVerdict_lastTime (err : Option FrameError) (ts : Time) : (stampVerdict err ts s).lastTime = s.lastTime := rfl
@[simp] theorem stampVerdict_frame (err : Option FrameError) (ts : Time) : (stampVerdict err ts s).frame = { s.frame with valid := some (validFlag err), error := err, endTime := ts } := rfl
@[simp] theorem stampVerdict_payload (err : Option FrameError) (ts : Time) : (stampVerdict err ts s).payload = s.payload := rfl
@[simp] theorem stampVerdict_outValid (err : Option FrameError) (ts : Time) : (stampVerdict err ts s).outValid = s.outValid := rfl
@[simp] theorem stampVerdict_out (err : Option FrameError) (ts : Time) : (stampVerdict err ts s).out = s.out := rfl
@[simp] theorem stampVerdict_returned (err : Option FrameError) (ts : Time) : (stampVerdict err ts s).returned = s.returned := rfl
@[simp] theorem stampVerdict_inputs (err : Option FrameError) (ts : Time) : (stampVerdict err ts s).inputs = s.inputs := rfl
@[simp] theorem stampVerdict_cycle (err : Option FrameError) (ts : Time) : (stampVerdict err ts s).cycle = s.cycle := rfl
@[simp] theorem stampVerdict_pins (err : Option FrameError) (ts : Time) : (stampVerdict err ts s).pins = s.pins := rfl

@[simp] theorem finalize_state (err : Option FrameError) (ts : Time) : (finalize err ts s).state = .idle := rfl
@[simp] theorem finalize_hdrIdx (err : Option FrameError) (ts : Time) : (finalize err ts s).hdrIdx = 0#3 := rfl
@[simp] theorem finalize_dataIdx (err : Option FrameError) (ts : Time) : (finalize err ts s).dataIdx = 0#17 := rfl
@[simp] theorem finalize_lastTime (err : Option FrameError) (ts : Time) : (finalize err ts s).lastTime = s.lastTime := rfl
@[simp] theorem finalize_frame (err : Option FrameError) (ts : Time) : (finalize err ts s).frame = frameResetValue := rfl
@[simp] theorem finalize_payload (err : Option FrameError) (ts : Time) : (finalize err ts s).payload = s.payload := rfl
@[simp] theorem finalize_outValid (err : Option FrameError) (ts : Time) : (finalize err ts s).outValid = true := rfl
@[simp] theorem finalize_out (err : Option FrameError) (ts : Time) : (finalize err ts s).out = latch (finalRecord err ts s) := rfl
@[simp] theorem finalize_returned (err : Option FrameError) (ts : Time) : (finalize err ts s).returned = .record (finalRecord err ts s) := rfl
@[simp] theorem finalize_inputs (err : Option FrameError) (ts : Time) : (finalize err ts s).inputs = s.inputs := rfl
@[simp] theorem finalize_cycle (err : Option FrameError) (ts : Time) : (finalize err ts s).cycle = s.cycle := rfl
@[simp] theorem finalize_pins (err : Option FrameError) (ts : Time) : (finalize err ts s).pins = s.pins := rfl

@[simp] theorem idleEvent_state : (idleEvent s).state = s.state := rfl
@[simp] theorem idleEvent_hdrIdx : (idleEvent s).hdrIdx = s.hdrIdx := rfl
@[simp] theorem idleEvent_dataIdx : (idleEvent s).dataIdx = s.dataIdx := rfl
@[simp] theorem idleEvent_lastTime : (idleEvent s).lastTime = s.ts := rfl
@[simp] theorem idleEvent_frame : (idleEvent s).frame = { frameResetValue with startTime := s.ts } := rfl
@[simp] theorem idleEvent_payload : (idleEvent s).payload = s.payload := rfl
@[simp] theorem idleEvent_outValid : (idleEvent s).outValid = false := rfl
@[simp] theorem idleEvent_out : (idleEvent s).out = s.out := rfl
@[simp] theorem idleEvent_returned : (idleEvent s).returned = .nothing := rfl
@[simp] theorem idleEvent_inputs : (idleEvent s).inputs = s.inputs := rfl
@[simp] theorem idleEvent_cycle : (idleEvent s).cycle = s.cycle := rfl
@[simp] theorem idleEvent_pins : (idleEvent s).pins = s.pins := rfl

@[simp] theorem headerStep_state (octet : Byte) (next : BitVec 3) (f : Frame) : (headerStep octet next f s).state = s.state := rfl
@[simp] theorem headerStep_hdrIdx (octet : Byte) (next : BitVec 3) (f : Frame) : (headerStep octet next f s).hdrIdx = next := rfl
@[simp] theorem headerStep_dataIdx (octet : Byte) (next : BitVec 3) (f : Frame) : (headerStep octet next f s).dataIdx = s.dataIdx := rfl
@[simp] theorem headerStep_lastTime (octet : Byte) (next : BitVec 3) (f : Frame) : (headerStep octet next f s).lastTime = s.ts := rfl
@[simp] theorem headerStep_frame (octet : Byte) (next : BitVec 3) (f : Frame) : (headerStep octet next f s).frame = { f with headerCrcRunning := crc8 octet s.frame.headerCrcRunning } := rfl
@[simp] theorem headerStep_payload (octet : Byte) (next : BitVec 3) (f : Frame) : (headerStep octet next f s).payload = s.payload := rfl
@[simp] theorem headerStep_outValid (octet : Byte) (next : BitVec 3) (f : Frame) : (headerStep octet next f s).outValid = s.outValid := rfl
@[simp] theorem headerStep_out (octet : Byte) (next : BitVec 3) (f : Frame) : (headerStep octet next f s).out = s.out := rfl
@[simp] theorem headerStep_returned (octet : Byte) (next : BitVec 3) (f : Frame) : (headerStep octet next f s).returned = s.returned := rfl
@[simp] theorem headerStep_inputs (octet : Byte) (next : BitVec 3) (f : Frame) : (headerStep octet next f s).inputs = s.inputs := rfl
@[simp] theorem headerStep_cycle (octet : Byte) (next : BitVec 3) (f : Frame) : (headerStep octet next f s).cycle = s.cycle := rfl
@[simp] theorem headerStep_pins (octet : Byte) (next : BitVec 3) (f : Frame) : (headerStep octet next f s).pins = s.pins := rfl

@[simp] theorem enterData_state : (enterData s).state = .data := rfl
@[simp] theorem enterData_hdrIdx : (enterData s).hdrIdx = s.hdrIdx := rfl
@[simp] theorem enterData_dataIdx : (enterData s).dataIdx = 0#17 := rfl
@[simp] theorem enterData_lastTime : (enterData s).lastTime = s.lastTime := rfl
@[simp] theorem enterData_frame : (enterData s).frame = { s.frame with dataCrcRunning := Config.dcrcSeed } := rfl
@[simp] theorem enterData_payload : (enterData s).payload = s.payload := rfl
@[simp] theorem enterData_outValid : (enterData s).outValid = s.outValid := rfl
@[simp] theorem enterData_out : (enterData s).out = s.out := rfl
@[simp] theorem enterData_returned : (enterData s).returned = s.returned := rfl
@[simp] theorem enterData_inputs : (enterData s).inputs = s.inputs := rfl
@[simp] theorem enterData_cycle : (enterData s).cycle = s.cycle := rfl
@[simp] theorem enterData_pins : (enterData s).pins = s.pins := rfl

@[simp] theorem dataStep_state (octet : Byte) (idx : Idx17) (f : Frame) : (dataStep octet idx f s).state = s.state := rfl
@[simp] theorem dataStep_hdrIdx (octet : Byte) (idx : Idx17) (f : Frame) : (dataStep octet idx f s).hdrIdx = s.hdrIdx := rfl
@[simp] theorem dataStep_dataIdx (octet : Byte) (idx : Idx17) (f : Frame) : (dataStep octet idx f s).dataIdx = idx := rfl
@[simp] theorem dataStep_lastTime (octet : Byte) (idx : Idx17) (f : Frame) : (dataStep octet idx f s).lastTime = s.ts := rfl
@[simp] theorem dataStep_frame (octet : Byte) (idx : Idx17) (f : Frame) : (dataStep octet idx f s).frame = { f with dataCrcRunning := crc16 octet s.frame.dataCrcRunning } := rfl
@[simp] theorem dataStep_payload (octet : Byte) (idx : Idx17) (f : Frame) : (dataStep octet idx f s).payload = s.payload := rfl
@[simp] theorem dataStep_outValid (octet : Byte) (idx : Idx17) (f : Frame) : (dataStep octet idx f s).outValid = s.outValid := rfl
@[simp] theorem dataStep_out (octet : Byte) (idx : Idx17) (f : Frame) : (dataStep octet idx f s).out = s.out := rfl
@[simp] theorem dataStep_returned (octet : Byte) (idx : Idx17) (f : Frame) : (dataStep octet idx f s).returned = s.returned := rfl
@[simp] theorem dataStep_inputs (octet : Byte) (idx : Idx17) (f : Frame) : (dataStep octet idx f s).inputs = s.inputs := rfl
@[simp] theorem dataStep_cycle (octet : Byte) (idx : Idx17) (f : Frame) : (dataStep octet idx f s).cycle = s.cycle := rfl
@[simp] theorem dataStep_pins (octet : Byte) (idx : Idx17) (f : Frame) : (dataStep octet idx f s).pins = s.pins := rfl

@[simp] theorem offer_state (p : Pins) : (s.offer p).state = s.state := rfl
@[simp] theorem offer_hdrIdx (p : Pins) : (s.offer p).hdrIdx = s.hdrIdx := rfl
@[simp] theorem offer_dataIdx (p : Pins) : (s.offer p).dataIdx = s.dataIdx := rfl
@[simp] theorem offer_lastTime (p : Pins) : (s.offer p).lastTime = s.lastTime := rfl
@[simp] theorem offer_frame (p : Pins) : (s.offer p).frame = s.frame := rfl
@[simp] theorem offer_payload (p : Pins) : (s.offer p).payload = s.payload := rfl
@[simp] theorem offer_outValid (p : Pins) : (s.offer p).outValid = s.outValid := rfl
@[simp] theorem offer_out (p : Pins) : (s.offer p).out = s.out := rfl
@[simp] theorem offer_returned (p : Pins) : (s.offer p).returned = s.returned := rfl
@[simp] theorem offer_inputs (p : Pins) : (s.offer p).inputs = p :: s.inputs.tail := rfl
@[simp] theorem offer_cycle (p : Pins) : (s.offer p).cycle = s.cycle := rfl

@[simp] theorem offer_pins (p : Pins) : (s.offer p).pins = p := rfl

/-- The fields of the record finalize emits (R183). -/
@[simp] theorem finalRecord_kind (err : Option FrameError) (ts : Time) :
    (finalRecord err ts s).kind = kindOf err s.frame.length := rfl
@[simp] theorem finalRecord_error (err : Option FrameError) (ts : Time) :
    (finalRecord err ts s).error = err := rfl
@[simp] theorem finalRecord_valid (err : Option FrameError) (ts : Time) :
    (finalRecord err ts s).valid = validFlag err := rfl
@[simp] theorem finalRecord_frameType (err : Option FrameError) (ts : Time) :
    (finalRecord err ts s).frameType = s.frame.frameType := rfl
@[simp] theorem finalRecord_frameTypeName (err : Option FrameError) (ts : Time) :
    (finalRecord err ts s).frameTypeName = nameOf s.frame.frameType := rfl
@[simp] theorem finalRecord_dst (err : Option FrameError) (ts : Time) :
    (finalRecord err ts s).dst = s.frame.dstAddr := rfl
@[simp] theorem finalRecord_src (err : Option FrameError) (ts : Time) :
    (finalRecord err ts s).src = s.frame.srcAddr := rfl
@[simp] theorem finalRecord_length (err : Option FrameError) (ts : Time) :
    (finalRecord err ts s).length = s.frame.length := rfl
@[simp] theorem finalRecord_headerCrc (err : Option FrameError) (ts : Time) :
    (finalRecord err ts s).headerCrc = s.frame.headerCrcReceived := rfl
@[simp] theorem finalRecord_headerCrcValid (err : Option FrameError) (ts : Time) :
    (finalRecord err ts s).headerCrcValid = s.frame.headerCrcValid := rfl
@[simp] theorem finalRecord_dataBytes (err : Option FrameError) (ts : Time) :
    (finalRecord err ts s).dataBytes = s.payloadBytes s.frame.payloadCount.toNat := rfl
@[simp] theorem finalRecord_dataCrcMsb (err : Option FrameError) (ts : Time) :
    (finalRecord err ts s).dataCrcMsb = s.frame.dataCrcMsb := rfl
@[simp] theorem finalRecord_dataCrcLsb (err : Option FrameError) (ts : Time) :
    (finalRecord err ts s).dataCrcLsb = s.frame.dataCrcLsb := rfl
@[simp] theorem finalRecord_dataCrc (err : Option FrameError) (ts : Time) :
    (finalRecord err ts s).dataCrc = joinDataCrc s.frame.dataCrcMsb s.frame.dataCrcLsb := rfl
@[simp] theorem finalRecord_startTime (err : Option FrameError) (ts : Time) :
    (finalRecord err ts s).startTime = s.frame.startTime := rfl
@[simp] theorem finalRecord_endTime (err : Option FrameError) (ts : Time) :
    (finalRecord err ts s).endTime = ts := rfl

end Sys2Proof.Machine
end

