-- ==== Sys2Proof/Laws/Ops.lean ====
section
/-! SUPPORT. One lemma per shared operation that says once everything it can do, for the provers to cite. -/

namespace Sys2Proof.Machine

/-- storePayload answers only inside the store, and changes only the one cell. -/
theorem storePayload_next {s t : State} {a : Nat} {v : Byte} (h : storePayload s a v = .next t) :
    a < Config.payloadMax ∧ t = { s with payload := Memory.write s.payload a v } := by
  unfold storePayload at h
  split at h
  · exact ⟨by assumption, by simpa using h.symm⟩
  · cases h

/-- storePayload never refuses, and faults only outside the store. -/
theorem storePayload_fault {s : State} {a : Nat} {v : Byte} {e : Fault} (h : storePayload s a v = .fault e) :
    Config.payloadMax ≤ a ∧ e = .payloadIndex a := by
  unfold storePayload at h
  split at h
  · cases h
  · exact ⟨by omega, by simpa using h.symm⟩

/-- onNext answers a next state exactly where its argument does. -/
theorem onNext_next {f : State → State} {r : Result} {t : State} (h : onNext f r = .next t) :
    ∃ u, r = .next u ∧ t = f u := by
  cases r with
  | next u => exact ⟨u, rfl, by simpa [onNext] using h.symm⟩
  | fault e => simp [onNext] at h
  | refused e => simp [onNext] at h

/-- A step that answers a next state decoded its word, ran the operation, and ended the cycle. -/
theorem step_next {s t : State} (h : step s = .next t) :
    ∃ i u, decode s.word = .ok i ∧ exec i s = .next u ∧ t = endCycle u := by
  unfold step runCycle at h
  split at h
  · next i hi =>
    obtain ⟨u, hu, ht⟩ := onNext_next h
    exact ⟨i, u, hi, hu, ht⟩
  · cases h

/-- A decoded operation is a row of the operation map that admits the word (R93). -/
theorem decode_row {w : BitVec 16} {i : Instr} (h : decode w = .ok i) :
    ∃ r ∈ opTable, r.admits w = true ∧ i = r.build (wordOctet w) := by
  unfold decode at h
  split at h
  · next r hr =>
    exact ⟨r, List.mem_of_find?_eq_some hr, by simpa using List.find?_some hr, by simpa using h.symm⟩
  · cases h

/-- emit answers exactly where the frame's verdict is present (R182). -/
theorem emit_some {s : State} {r : Record} (h : emit s = some r) :
    ∃ v, s.frame.valid = some v ∧ r = recordOf v s.frame (s.payloadBytes s.frame.payloadCount.toNat) := by
  unfold emit at h
  cases hv : s.frame.valid with
  | none => simp [hv] at h
  | some v => exact ⟨v, rfl, by simpa [hv] using h.symm⟩

/-- What finalize latches is what emit makes of the stamped frame (R180). -/
theorem emit_stampVerdict (err : Option FrameError) (ts : Time) (s : State) :
    emit (stampVerdict err ts s) = some (finalRecord err ts s) := rfl

/-- finalize is the emission of the stamped frame, then the reset (R180). -/
theorem finalize_spec (err : Option FrameError) (ts : Time) (s : State) :
    ∃ r, emit (stampVerdict err ts s) = some r ∧
      finalize err ts s = { frameReset s with
        state := .idle
        hdrIdx := 0#3
        dataIdx := 0#17
        outValid := true
        out := latch r
        returned := .record r } :=
  ⟨finalRecord err ts s, rfl, rfl⟩

/-- The three exits of H_CRC (R161). -/
theorem execHCrc_cases (octet : Byte) (s : State) :
    (headerGood (crc8 octet s.frame.headerCrcRunning) = false ∧
      execHCrc octet s = .next (raiseError .badHeaderCrc s.ts (headerCheckStep octet s))) ∨
    (headerGood (crc8 octet s.frame.headerCrcRunning) = true ∧ s.frame.length = 0#16 ∧
      execHCrc octet s = .next (finalize none s.ts (headerCheckStep octet s))) ∨
    (headerGood (crc8 octet s.frame.headerCrcRunning) = true ∧ s.frame.length ≠ 0#16 ∧
      execHCrc octet s = .next (returnNone (enterData (headerCheckStep octet s)))) := by
  unfold execHCrc
  cases hg : headerGood (crc8 octet s.frame.headerCrcRunning) with
  | false => simp [hg]
  | true =>
    by_cases hl : s.frame.length = 0#16
    · simp [hg, hl]
    · simp [hg, hl]

/-- The two exits of D_CRC2 (R173). -/
theorem execDCrc2_cases (octet : Byte) (s : State) :
    (dataGood (crc16 octet s.frame.dataCrcRunning) = true ∧
      execDCrc2 octet s =
        .next (finalize none s.ts (dataStep octet 0#17 { s.frame with dataCrcLsb := some octet } s))) ∨
    (dataGood (crc16 octet s.frame.dataCrcRunning) = false ∧
      execDCrc2 octet s =
        .next (raiseError .badDataCrc s.ts (dataStep octet 0#17 { s.frame with dataCrcLsb := some octet } s))) := by
  unfold execDCrc2
  cases hg : dataGood (crc16 octet s.frame.dataCrcRunning) with
  | false => simp [hg]
  | true => simp [hg]

/-- D_PAYLOAD stores one cell inside the store, and its registers are those of its rule (R171). -/
theorem execDPayload_next {octet : Byte} {s t : State} (h : execDPayload octet s = .next t) :
    payloadIndex s.dataIdx < Config.payloadMax ∧
      t = { returnNone (dataStep octet (s.dataIdx + 1#17)
              { s.frame with payloadCount := s.frame.payloadCount + 1#16 } s) with
            payload := Memory.write s.payload (payloadIndex s.dataIdx) octet } :=
  storePayload_next h

/-- Both CRC tables have 256 entries, so every read is in range (R13 (h)). -/
theorem crc8Rom_length : crc8Rom.length = 256 := by decide +kernel

theorem crc16Rom_length : crc16Rom.length = 256 := by decide +kernel

@[simp] theorem crc8Fold_nil (seed : Byte) : crc8Fold [] seed = seed := rfl

@[simp] theorem crc8Fold_cons (b : Byte) (bs : List Byte) (seed : Byte) :
    crc8Fold (b :: bs) seed = crc8Fold bs (crc8 b seed) := rfl

theorem crc8Fold_append (as bs : List Byte) (seed : Byte) :
    crc8Fold (as ++ bs) seed = crc8Fold bs (crc8Fold as seed) := by
  simp [crc8Fold]

@[simp] theorem crc16Fold_nil (seed : Half) : crc16Fold [] seed = seed := rfl

@[simp] theorem crc16Fold_cons (b : Byte) (bs : List Byte) (seed : Half) :
    crc16Fold (b :: bs) seed = crc16Fold bs (crc16 b seed) := rfl

theorem crc16Fold_append (as bs : List Byte) (seed : Half) :
    crc16Fold (as ++ bs) seed = crc16Fold bs (crc16Fold as seed) := by
  simp [crc16Fold]

end Sys2Proof.Machine
end

