-- ==== Sys2Proof/Laws/PerInstr.lean ====
section
/-! SUPPORT. Facts about every operation as syntax, one lemma per constructor of `Instr`. -/

namespace Sys2Proof.Laws

/-- The word of an operation lies in the row of the operation map that has the operation's mnemonic (R93);
an operation without a word has no row (R95). -/
def RowAdmits.check (i : Instr) : Bool :=
  match encode i with
  | some w => opTable.any (fun r => r.mnemonic == i.mnemonic && r.admits w)
  | none => !opTable.any (fun r => r.mnemonic == i.mnemonic)

def RowAdmits.Statement (i : Instr) : Prop :=
  RowAdmits.check i = true

theorem RowAdmits.reset : RowAdmits.Statement .reset := by
  unfold RowAdmits.Statement
  decide +kernel

theorem RowAdmits.hold : RowAdmits.Statement .hold := by
  unfold RowAdmits.Statement
  decide +kernel

theorem RowAdmits.iStart : RowAdmits.Statement .iStart := by
  unfold RowAdmits.Statement
  decide +kernel

theorem RowAdmits.iNoise (octet : Byte) : RowAdmits.Statement (.iNoise octet) := by
  revert octet
  unfold RowAdmits.Statement
  decide +kernel

theorem RowAdmits.pTimeout : RowAdmits.Statement .pTimeout := by
  unfold RowAdmits.Statement
  decide +kernel

theorem RowAdmits.pSync : RowAdmits.Statement .pSync := by
  unfold RowAdmits.Statement
  decide +kernel

theorem RowAdmits.pRepeat : RowAdmits.Statement .pRepeat := by
  unfold RowAdmits.Statement
  decide +kernel

theorem RowAdmits.pAbandon (octet : Byte) : RowAdmits.Statement (.pAbandon octet) := by
  revert octet
  unfold RowAdmits.Statement
  decide +kernel

theorem RowAdmits.hTimeout : RowAdmits.Statement .hTimeout := by
  unfold RowAdmits.Statement
  decide +kernel

theorem RowAdmits.hType (octet : Byte) : RowAdmits.Statement (.hType octet) := by
  revert octet
  unfold RowAdmits.Statement
  decide +kernel

theorem RowAdmits.hDst (octet : Byte) : RowAdmits.Statement (.hDst octet) := by
  revert octet
  unfold RowAdmits.Statement
  decide +kernel

theorem RowAdmits.hSrc (octet : Byte) : RowAdmits.Statement (.hSrc octet) := by
  revert octet
  unfold RowAdmits.Statement
  decide +kernel

theorem RowAdmits.hLenhi (octet : Byte) : RowAdmits.Statement (.hLenhi octet) := by
  revert octet
  unfold RowAdmits.Statement
  decide +kernel

theorem RowAdmits.hLenlo (octet : Byte) : RowAdmits.Statement (.hLenlo octet) := by
  revert octet
  unfold RowAdmits.Statement
  decide +kernel

theorem RowAdmits.hCrc (octet : Byte) : RowAdmits.Statement (.hCrc octet) := by
  revert octet
  unfold RowAdmits.Statement
  decide +kernel

theorem RowAdmits.dTimeout : RowAdmits.Statement .dTimeout := by
  unfold RowAdmits.Statement
  decide +kernel

theorem RowAdmits.dPayload (octet : Byte) : RowAdmits.Statement (.dPayload octet) := by
  revert octet
  unfold RowAdmits.Statement
  decide +kernel

theorem RowAdmits.dCrc1 (octet : Byte) : RowAdmits.Statement (.dCrc1 octet) := by
  revert octet
  unfold RowAdmits.Statement
  decide +kernel

theorem RowAdmits.dCrc2 (octet : Byte) : RowAdmits.Statement (.dCrc2 octet) := by
  revert octet
  unfold RowAdmits.Statement
  decide +kernel

theorem RowAdmits.crc8 (byte crcIn : Byte) : RowAdmits.Statement (.crc8 byte crcIn) := by
  unfold RowAdmits.Statement
  rfl

theorem RowAdmits.crc16 (byte : Byte) (crcIn : Half) : RowAdmits.Statement (.crc16 byte crcIn) := by
  unfold RowAdmits.Statement
  rfl

theorem RowAdmits.nameOf (code : Option Byte) : RowAdmits.Statement (.nameOf code) := by
  unfold RowAdmits.Statement
  rfl

theorem RowAdmits.frameReset : RowAdmits.Statement .frameReset := by
  unfold RowAdmits.Statement
  decide +kernel

theorem RowAdmits.finalize (err : Option FrameError) (ts : Time) : RowAdmits.Statement (.finalize err ts) := by
  unfold RowAdmits.Statement
  rfl

theorem RowAdmits.emit : RowAdmits.Statement .emit := by
  unfold RowAdmits.Statement
  decide +kernel

end Sys2Proof.Laws
end

