-- ==== Sys2Proof/Laws/Step.lean ====
section
/-! SUPPORT. What a step can do, said once: the operation the current cycle selects, with what that says of the
state it was selected in. A proof about a step takes its cases from here and unfolds no decoder. -/

namespace Sys2Proof.Machine

/-- The decoder answers an operation exactly where its answer, as an option, is that operation. -/
theorem decode_ok_iff {w : BitVec 16} {i : Instr} : decode w = .ok i ↔ (decode w).toOption = some i := by
  cases decode w <;> simp [Except.toOption]

/-- What an event in `Preamble` selects. -/
def PreambleChoice (s : State) (i : Instr) : Prop :=
  (s.trip = true ∧ i = .pTimeout) ∨
  (s.trip = false ∧ s.octet = 0xFF#8 ∧ i = .pSync) ∨
  (s.trip = false ∧ s.octet = 0x55#8 ∧ i = .pRepeat) ∨
  (s.trip = false ∧ s.octet ≠ 0xFF#8 ∧ s.octet ≠ 0x55#8 ∧ i = .pAbandon s.octet)

/-- What an event in `Header` selects. -/
def HeaderChoice (s : State) (i : Instr) : Prop :=
  (s.trip = true ∧ i = .hTimeout) ∨
  (s.trip = false ∧ s.hdrIdx = 0#3 ∧ i = .hType s.octet) ∨
  (s.trip = false ∧ s.hdrIdx = 1#3 ∧ i = .hDst s.octet) ∨
  (s.trip = false ∧ s.hdrIdx = 2#3 ∧ i = .hSrc s.octet) ∨
  (s.trip = false ∧ s.hdrIdx = 3#3 ∧ i = .hLenhi s.octet) ∨
  (s.trip = false ∧ s.hdrIdx = 4#3 ∧ i = .hLenlo s.octet) ∨
  (s.trip = false ∧ s.hdrIdx = 5#3 ∧ i = .hCrc s.octet)

/-- What an event in `Data` selects. -/
def DataChoice (s : State) (i : Instr) : Prop :=
  (s.trip = true ∧ i = .dTimeout) ∨
  (s.trip = false ∧ s.dataIdx.toNat < s.frame.length.toNat ∧ i = .dPayload s.octet) ∨
  (s.trip = false ∧ s.dataIdx.toNat = s.frame.length.toNat ∧ i = .dCrc1 s.octet) ∨
  (s.trip = false ∧ s.dataIdx.toNat = s.frame.length.toNat + 1 ∧ i = .dCrc2 s.octet)

/-- What the current cycle can select (R93), with the pins and the state it is selected in. -/
def CycleChoice (s : State) (i : Instr) : Prop :=
  (s.pins.rst = true ∧ i = .reset) ∨
  (s.pins.rst = false ∧ s.pins.inValid = false ∧ i = .hold) ∨
  (s.pins.rst = false ∧ s.pins.inValid = true ∧ s.state = .idle ∧ s.octet = 0x55#8 ∧ i = .iStart) ∨
  (s.pins.rst = false ∧ s.pins.inValid = true ∧ s.state = .idle ∧ s.octet ≠ 0x55#8 ∧ i = .iNoise s.octet) ∨
  (s.pins.rst = false ∧ s.pins.inValid = true ∧ s.state = .preamble ∧ PreambleChoice s i) ∨
  (s.pins.rst = false ∧ s.pins.inValid = true ∧ s.state = .header ∧ HeaderChoice s i) ∨
  (s.pins.rst = false ∧ s.pins.inValid = true ∧ s.state = .data ∧ DataChoice s i)

theorem two_bits_cases : ∀ v : BitVec 2, v = 0#2 ∨ v = 1#2 ∨ v = 2#2 ∨ v = 3#2 := by decide

theorem three_bits_cases : ∀ v : BitVec 3,
    v = 0#3 ∨ v = 1#3 ∨ v = 2#3 ∨ v = 3#3 ∨ v = 4#3 ∨ v = 5#3 ∨ v = 6#3 ∨ v = 7#3 := by decide

/-- An event in `Idle` selects by the octet alone. -/
theorem decode_idle {pos : BitVec 3} {trip : Bool} {octet : Byte} {i : Instr}
    (h : decode (packWord false true trip 0#2 pos octet) = .ok i) :
    (octet = 0x55#8 ∧ i = .iStart) ∨ (octet ≠ 0x55#8 ∧ i = .iNoise octet) := by
  have h255 : octet &&& 255#8 = octet := by simpa using BitVec.and_allOnes (x := octet)
  rw [decode_ok_iff, decode_packWord] at h
  cases trip <;>
    simp [opTable, List.findSome?, admits_packWord, wordRst, wordInValid, wordTrip, wordState, wordPos, wordOctet,
      h255] at h <;>
    split_ifs at h <;> simp_all

/-- A cycle with `rst` selects RESET. -/
theorem decode_rst {inValid trip : Bool} {st : BitVec 2} {pos : BitVec 3} {octet : Byte} {i : Instr}
    (h : decode (packWord true inValid trip st pos octet) = .ok i) : i = .reset := by
  rw [decode_ok_iff, decode_packWord] at h
  simp [opTable, admits_packWord, wordRst, wordInValid, wordTrip, wordState, wordPos, wordOctet] at h
  exact h.symm

/-- A cycle without `rst` and `in_valid` selects HOLD. -/
theorem decode_quiet {trip : Bool} {st : BitVec 2} {pos : BitVec 3} {octet : Byte} {i : Instr}
    (h : decode (packWord false false trip st pos octet) = .ok i) : i = .hold := by
  rw [decode_ok_iff, decode_packWord] at h
  simp [opTable, List.findSome?, admits_packWord, wordRst, wordInValid, wordTrip, wordState, wordPos, wordOctet] at h
  exact h.symm

/-- An event in `Preamble` selects by the trip bit and then by the octet. -/
theorem decode_preamble {pos : BitVec 3} {trip : Bool} {octet : Byte} {i : Instr}
    (h : decode (packWord false true trip 1#2 pos octet) = .ok i) :
    (trip = true ∧ i = .pTimeout) ∨ (trip = false ∧ octet = 0xFF#8 ∧ i = .pSync) ∨
      (trip = false ∧ octet = 0x55#8 ∧ i = .pRepeat) ∨
      (trip = false ∧ octet ≠ 0xFF#8 ∧ octet ≠ 0x55#8 ∧ i = .pAbandon octet) := by
  have h255 : octet &&& 255#8 = octet := by simpa using BitVec.and_allOnes (x := octet)
  rw [decode_ok_iff, decode_packWord] at h
  cases trip <;>
    simp [opTable, List.findSome?, admits_packWord, wordRst, wordInValid, wordTrip, wordState, wordPos, wordOctet,
      h255] at h
  · split_ifs at h <;> simp_all
  · simp [h]

/-- An event in `Header` selects by the trip bit and then by the position. -/
theorem decode_header {pos : BitVec 3} {trip : Bool} {octet : Byte} {i : Instr}
    (h : decode (packWord false true trip 2#2 pos octet) = .ok i) :
    (trip = true ∧ i = .hTimeout) ∨ (trip = false ∧ pos = 0#3 ∧ i = .hType octet) ∨
      (trip = false ∧ pos = 1#3 ∧ i = .hDst octet) ∨ (trip = false ∧ pos = 2#3 ∧ i = .hSrc octet) ∨
      (trip = false ∧ pos = 3#3 ∧ i = .hLenhi octet) ∨ (trip = false ∧ pos = 4#3 ∧ i = .hLenlo octet) ∨
      (trip = false ∧ pos = 5#3 ∧ i = .hCrc octet) := by
  rw [decode_ok_iff, decode_packWord] at h
  cases trip <;> rcases three_bits_cases pos with rfl | rfl | rfl | rfl | rfl | rfl | rfl | rfl <;>
    simp [opTable, List.findSome?, admits_packWord, wordRst, wordInValid, wordTrip, wordState, wordPos, wordOctet]
      at h <;>
    simp [h]

/-- An event in `Data` selects by the trip bit and then by the position class. -/
theorem decode_data {pos : BitVec 3} {trip : Bool} {octet : Byte} {i : Instr}
    (h : decode (packWord false true trip 3#2 pos octet) = .ok i) :
    (trip = true ∧ i = .dTimeout) ∨ (trip = false ∧ pos = 0#3 ∧ i = .dPayload octet) ∨
      (trip = false ∧ pos = 1#3 ∧ i = .dCrc1 octet) ∨ (trip = false ∧ pos = 2#3 ∧ i = .dCrc2 octet) := by
  rw [decode_ok_iff, decode_packWord] at h
  cases trip <;> rcases three_bits_cases pos with rfl | rfl | rfl | rfl | rfl | rfl | rfl | rfl <;>
    simp [opTable, List.findSome?, admits_packWord, wordRst, wordInValid, wordTrip, wordState, wordPos, wordOctet]
      at h <;>
    simp [h]

/-- The position classes of `Data` (R91). -/
theorem dataClass_zero {idx : Idx17} {length : Half} (h : dataClass idx length = 0#3) :
    idx.toNat < length.toNat := by
  unfold dataClass at h
  split_ifs at h <;> first | assumption | exact absurd h (by decide)

theorem dataClass_one {idx : Idx17} {length : Half} (h : dataClass idx length = 1#3) :
    idx.toNat = length.toNat := by
  unfold dataClass at h
  split_ifs at h <;> first | assumption | exact absurd h (by decide)

theorem dataClass_two {idx : Idx17} {length : Half} (h : dataClass idx length = 2#3) :
    idx.toNat = length.toNat + 1 := by
  unfold dataClass at h
  split_ifs at h <;> first | assumption | exact absurd h (by decide)

/-- The current cycle selects one of the operations of R93, in the state its row names. -/
theorem decode_word_cases {s : State} {i : Instr} (h : decode s.word = .ok i) : CycleChoice s i := by
  unfold State.word at h
  unfold CycleChoice
  cases hr : s.pins.rst with
  | true =>
    rw [hr] at h
    exact .inl ⟨rfl, decode_rst h⟩
  | false =>
    cases hv : s.pins.inValid with
    | false =>
      rw [hr, hv] at h
      exact .inr (.inl ⟨rfl, rfl, decode_quiet h⟩)
    | true =>
      rw [hr, hv] at h
      cases hs : s.state with
      | idle =>
        rw [hs] at h
        rcases decode_idle h with ⟨ho, hi⟩ | ⟨ho, hi⟩ <;> simp [ho, hi]
      | preamble =>
        rw [hs] at h
        simpa [PreambleChoice] using decode_preamble h
      | header =>
        have hp : s.posClass = s.hdrIdx := by simp [State.posClass, hs]
        rw [hs, hp] at h
        simpa [HeaderChoice] using decode_header h
      | data =>
        have hp : s.posClass = dataClass s.dataIdx s.frame.length := by simp [State.posClass, hs]
        rw [hs, hp] at h
        have hd : DataChoice s i := by
          unfold DataChoice
          rcases decode_data h with h | ⟨ht, hc, hi⟩ | ⟨ht, hc, hi⟩ | ⟨ht, hc, hi⟩
          · exact .inl h
          · exact .inr (.inl ⟨ht, dataClass_zero hc, hi⟩)
          · exact .inr (.inr (.inl ⟨ht, dataClass_one hc, hi⟩))
          · exact .inr (.inr (.inr ⟨ht, dataClass_two hc, hi⟩))
        simpa using hd

end Sys2Proof.Machine
end

