-- ==== Sys2Proof/Machine/Display.lean ====
section
/-! DEFINITION. The display functions of spec/46_finalize_emit.md R194, outside the hardware: they let a record
be compared with the display values of the source. -/

namespace Sys2Proof.Machine

/-- The character of a 4-bit value, from `0123456789ABCDEF`. -/
def hexDigit (v : BitVec 4) : Char :=
  ['0', '1', '2', '3', '4', '5', '6', '7', '8', '9', 'A', 'B', 'C', 'D', 'E', 'F'].getD v.toNat '0'

/-- `hex2` (R194). -/
def hex2 (v : Byte) : String :=
  String.ofList [hexDigit (v.extractLsb' 4 4), hexDigit (v.extractLsb' 0 4)]

/-- `hex4` (R194). -/
def hex4 (v : Half) : String :=
  String.ofList [hexDigit (v.extractLsb' 12 4), hexDigit (v.extractLsb' 8 4), hexDigit (v.extractLsb' 4 4),
    hexDigit (v.extractLsb' 0 4)]

/-- An absent field shows as `-` (R194). -/
def showField {α : Type} (f : α → String) (x : Option α) : String :=
  (x.map f).getD "-"

/-- The display of `dst` (R194). -/
def Record.showDst (r : Record) : String :=
  showField hex2 r.dst

/-- The display of `src` (R194). -/
def Record.showSrc (r : Record) : String :=
  showField hex2 r.src

/-- The display of `header_crc` (R194). -/
def Record.showHeaderCrc (r : Record) : String :=
  showField hex2 r.headerCrc

/-- The display of `data_crc` (R194). -/
def Record.showDataCrc (r : Record) : String :=
  showField hex4 r.dataCrc

/-- The display of `frame_type` in the source's scenarios: the name's string (R102, R131). -/
def Record.showTypeName (r : Record) : String :=
  r.frameTypeName.text

end Sys2Proof.Machine
end

