-- ==== Sys2Proof/Tests/Slice0.lean ====
section
/-! SUPPORT. Tests. Expected values are those of spec/95_test_vectors.md and of the examples in the rules named
beside them. The second half shows, for each obligation with hypotheses, a state that meets them. -/

namespace Sys2Proof.Tests

open Sys2Proof.Machine

/-! ### Well-formed terms -/

/-- R93 row 4: `0x55` is no noise. -/
theorem test_wellFormed_refuses_noise_55 : Instr.wellFormed (.iNoise 0x55#8) = false := by decide
theorem test_wellFormed_accepts_noise_FF : Instr.wellFormed (.iNoise 0xFF#8) = true := by decide
/-- R93 row 8: `0xFF` and `0x55` do not abandon. -/
theorem test_wellFormed_refuses_abandon_FF : Instr.wellFormed (.pAbandon 0xFF#8) = false := by decide
theorem test_wellFormed_refuses_abandon_55 : Instr.wellFormed (.pAbandon 0x55#8) = false := by decide

/-! ### Decoding: the words of spec/95_test_vectors.md, or written bit by bit from R90 and R93 -/

theorem test_decode_reset : decode 0xD110#16 = .ok .reset := by decide
theorem test_decode_reset_bits : decode 0b1000000000000000#16 = .ok .reset := by decide
theorem test_decode_hold : decode 0b0011111111111111#16 = .ok .hold := by decide
theorem test_decode_iStart : decode 0b0100000001010101#16 = .ok .iStart := by decide
theorem test_decode_iNoise : decode 0x4010#16 = .ok (.iNoise 0x10#8) := by decide
theorem test_decode_pTimeout : decode 0b0110100000000001#16 = .ok .pTimeout := by decide
theorem test_decode_pSync : decode 0x48FF#16 = .ok .pSync := by decide
theorem test_decode_pRepeat : decode 0x4855#16 = .ok .pRepeat := by decide
theorem test_decode_pAbandon : decode 0x4800#16 = .ok (.pAbandon 0x00#8) := by decide
theorem test_decode_hTimeout : decode 0x7300#16 = .ok .hTimeout := by decide
theorem test_decode_hType : decode 0b0101000011111111#16 = .ok (.hType 0xFF#8) := by decide
theorem test_decode_hDst : decode 0x5110#16 = .ok (.hDst 0x10#8) := by decide
theorem test_decode_hSrc : decode 0x5205#16 = .ok (.hSrc 0x05#8) := by decide
theorem test_decode_hLenhi : decode 0x5300#16 = .ok (.hLenhi 0x00#8) := by decide
theorem test_decode_hLenlo : decode 0x5402#16 = .ok (.hLenlo 0x02#8) := by decide
theorem test_decode_hCrc : decode 0x5573#16 = .ok (.hCrc 0x73#8) := by decide
theorem test_decode_dTimeout : decode 0x7A56#16 = .ok .dTimeout := by decide
theorem test_decode_dPayload : decode 0b0101100010101010#16 = .ok (.dPayload 0xAA#8) := by decide
theorem test_decode_dCrc1 : decode 0x5990#16 = .ok (.dCrc1 0x90#8) := by decide
theorem test_decode_dCrc2 : decode 0x5A56#16 = .ok (.dCrc2 0x56#8) := by decide

/-- R94: the two classes of words that match no row. -/
theorem test_decode_rejects_header : decode 0x5600#16 = .error (.headerPosition 6#3) := by decide
theorem test_decode_rejects_data : decode 0x5B00#16 = .error (.dataPosition 3#3) := by decide

theorem test_decodeTableWord : decodeTableWord 16 0x48FF = some .pSync := by decide
theorem test_decodeTableWord_rejects : decodeTableWord 16 0x5700 = none := by decide

/-! ### States on the way of scenario B: `55 FF 00 10 05 00 02 73 AA BB 90 56` from time 100 (V7) -/

/-- An event one tick after the last one, with the threshold of V7. -/
def late (s : State) (octet : Byte) (gap : Time) : State :=
  { s with inputs := [Pins.event octet (s.lastTime + gap) 10#64] }

def preambleState : State :=
  { State.reset with
    state := .preamble
    lastTime := 100#64
    frame := { frameResetValue with startTime := 100#64 } }

/-- In `Header` at position `k`. -/
def headerState (k : Nat) : State :=
  { State.reset with
    state := .header
    hdrIdx := BitVec.ofNat 3 k
    lastTime := BitVec.ofNat 64 (101 + k)
    frame :=
      { frameResetValue with
        startTime := 100#64
        frameType := if 1 ≤ k then some 0x00#8 else none
        dstAddr := if 2 ≤ k then some 0x10#8 else none
        srcAddr := if 3 ≤ k then some 0x05#8 else none
        length := if k = 5 then 2#16 else 0#16
        headerCrcRunning := [0xFF#8, 0x55#8, 0xC2#8, 0xBC#8, 0x95#8, 0x8C#8].getD k 0#8 } }

/-- In `Data` at position `j`. -/
def dataState (j : Nat) : State :=
  { State.reset with
    state := .data
    dataIdx := BitVec.ofNat 17 j
    lastTime := BitVec.ofNat 64 (107 + j)
    payload := [(0, 0xAA#8), (1, 0xBB#8)].take (min j 2)
    frame :=
      { frameResetValue with
        startTime := 100#64
        frameType := some 0x00#8
        dstAddr := some 0x10#8
        srcAddr := some 0x05#8
        length := 2#16
        headerCrcRunning := 0x55#8
        headerCrcReceived := some 0x73#8
        headerCrcValid := some true
        payloadCount := BitVec.ofNat 16 (min j 2)
        dataCrcRunning := [0xFFFF#16, 0x05D7#16, 0xA96F#16, 0x0FD1#16].getD j 0#16
        dataCrcMsb := if j = 3 then some 0x90#8 else none } }

/-- What `f` reads in the next state, if there is one. -/
def see {α : Type} (r : Result) (f : State → α) : Option α :=
  match r with
  | .next t => some (f t)
  | .fault _ => none
  | .refused _ => none

/-- What `f` reads in the record just made, if there is one. -/
def seeRecord {α : Type} (r : Result) (f : Record → α) : Option α :=
  match see r State.returned with
  | some (.record rec) => some (f rec)
  | _ => none

/-! ### One step of each operation -/

/-- V113, cycle 7: RESET wins over the event offered with it. -/
theorem test_step_reset :
    see (step { headerState 1 with inputs := [{ Pins.event 0x10#8 103#64 10#64 with rst := true }] })
      (fun t => (t.state, t.hdrIdx, t.lastTime, t.outValid)) = some (.idle, 0#3, 0#64, false) := by decide

/-- V113, cycles 4 and 18: HOLD keeps the place and lowers `out_valid`. -/
theorem test_step_hold :
    see (step { headerState 0 with outValid := true })
      (fun t => (t.state, t.outValid, t.frame == (headerState 0).frame)) = some (.header, false, true) := by decide

/-- R140: state `Idle`, `OCT 55 @100`. -/
theorem test_step_iStart :
    see (step { State.reset with inputs := [Pins.event 0x55#8 100#64 10#64] })
      (fun t => (t.state, t.frame.startTime, t.lastTime)) = some (.preamble, 100#64, 100#64) := by decide

/-- R141: state `Idle`, `OCT FF @7`. -/
theorem test_step_iNoise :
    see (step { State.reset with inputs := [Pins.event 0xFF#8 7#64 10#64] })
      (fun t => (t.state, t.frame.startTime, t.returned)) = some (.idle, 7#64, .nothing) := by decide

/-- R143: `OCT FF @111` after `55 @100` with threshold 10. -/
theorem test_step_pTimeout :
    seeRecord (step (late preambleState 0xFF#8 11#64))
      (fun r => (r.kind, r.error, r.frameTypeName, r.startTime, r.endTime)) =
        some (.malformed, some .timeout, .absent, 100#64, 111#64) := by decide

/-- R148: a gap equal to the threshold does not trip. -/
theorem test_step_pSync :
    see (step (late preambleState 0xFF#8 10#64)) (fun t => (t.state, t.hdrIdx, t.frame.headerCrcRunning)) =
      some (.header, 0#3, 0xFF#8) := by decide

/-- R145: `OCT 55 @101` keeps `start_time = 100`. -/
theorem test_step_pRepeat :
    see (step (late preambleState 0x55#8 1#64)) (fun t => (t.state, t.frame.startTime, t.lastTime)) =
      some (.preamble, 100#64, 101#64) := by decide

/-- R146: `OCT 00 @101`: back to `Idle`, no record. -/
theorem test_step_pAbandon :
    see (step (late preambleState 0x00#8 1#64)) (fun t => (t.state, t.frame.startTime, t.returned)) =
      some (.idle, 0#64, .nothing) := by decide

/-- V9 (scenario D): `OCT 00 @115` in `Header(3)`. -/
theorem test_step_hTimeout :
    seeRecord (step (late (headerState 3) 0x00#8 11#64))
      (fun r => (r.error, r.frameTypeName, r.src, r.headerCrc, r.endTime)) =
        some (some .timeout, .token, some 0x05#8, none, 115#64) := by decide

/-- V96: `55` in `Header(0)` is a type code. -/
theorem test_step_hType :
    see (step (late (headerState 0) 0x55#8 1#64)) (fun t => (t.state, t.hdrIdx, t.frame.frameType)) =
      some (.header, 1#3, some 0x55#8) := by decide

/-- V7, event 4. -/
theorem test_step_hDst :
    see (step (late (headerState 1) 0x10#8 1#64)) (fun t => (t.hdrIdx, t.frame.dstAddr, t.frame.headerCrcRunning)) =
      some (2#3, some 0x10#8, 0xC2#8) := by decide

/-- V7, event 5. -/
theorem test_step_hSrc :
    see (step (late (headerState 2) 0x05#8 1#64)) (fun t => (t.hdrIdx, t.frame.srcAddr, t.frame.headerCrcRunning)) =
      some (3#3, some 0x05#8, 0xBC#8) := by decide

/-- V93: `length = 65280`. -/
theorem test_step_hLenhi :
    see (step (late (headerState 3) 0xFF#8 1#64)) (fun t => (t.hdrIdx, t.frame.length)) =
      some (4#3, 0xFF00#16) := by decide

/-- V7, event 7. -/
theorem test_step_hLenlo :
    see (step (late (headerState 4) 0x02#8 1#64))
      (fun t => (t.hdrIdx, t.frame.length, t.frame.headerCrcRunning)) = some (5#3, 2#16, 0x8C#8) := by decide

/-- V7, event 8: into `Data`. -/
theorem test_step_hCrc_data :
    see (step (late (headerState 5) 0x73#8 1#64)) (fun t => (t.state, t.dataIdx, t.frame.headerCrcValid, t.returned)) =
      some (.data, 0#17, some true, .nothing) := by decide

/-- V92: a bad check, with `length = 2` reported and not acted on. -/
theorem test_step_hCrc_bad :
    seeRecord (step (late (headerState 5) 0x72#8 1#64))
      (fun r => (r.kind, r.error, r.headerCrc, r.headerCrcValid, r.length)) =
        some (.malformed, some .badHeaderCrc, some 0x72#8, some false, 2#16) := by decide

/-- V98, `j = 3`: the first trailing octet is kept. -/
theorem test_step_dTimeout :
    seeRecord (step (late (dataState 3) 0x00#8 11#64))
      (fun r => (r.dataBytes, r.dataCrcMsb, r.dataCrcLsb, r.dataCrc, r.endTime)) =
        some ([0xAA#8, 0xBB#8], some 0x90#8, none, none, 121#64) := by decide

/-- V7, event 10. -/
theorem test_step_dPayload :
    see (step (late (dataState 1) 0xBB#8 1#64))
      (fun t => (t.dataIdx, t.payload, t.frame.payloadCount, t.frame.dataCrcRunning)) =
        some (2#17, [(0, 0xAA#8), (1, 0xBB#8)], 2#16, 0xA96F#16) := by decide

/-- V7, event 11: no payload octet. -/
theorem test_step_dCrc1 :
    see (step (late (dataState 2) 0x90#8 1#64))
      (fun t => (t.dataIdx, t.frame.payloadCount, t.frame.dataCrcMsb, t.frame.dataCrcRunning)) =
        some (3#17, 2#16, some 0x90#8, 0x0FD1#16) := by decide

/-- V7, event 12. -/
theorem test_step_dCrc2_good :
    seeRecord (step (late (dataState 3) 0x56#8 1#64)) (fun r => (r.kind, r.valid, r.dataBytes, r.dataCrc, r.endTime)) =
      some (.data, true, [0xAA#8, 0xBB#8], some 0x9056#16, 111#64) := by decide

/-- V8, event 12. -/
theorem test_step_dCrc2_bad :
    seeRecord (step (late (dataState 3) 0x57#8 1#64)) (fun r => (r.kind, r.error, r.valid, r.dataCrc)) =
      some (.malformed, some .badDataCrc, false, some 0x9057#16) := by decide

/-- R117, R110. -/
theorem test_crc8 : see (exec (.crc8 0x55#8 0xFF#8) State.reset) State.returned = some (.octet 0x66#8) := by decide
/-- R120. -/
theorem test_crc16 : see (exec (.crc16 0x01#8 0xFFFF#16) State.reset) State.returned = some (.word 0x1E0E#16) := by
  decide
/-- R130. -/
theorem test_nameOf : see (exec (.nameOf (some 7#8)) State.reset) State.returned = some (.name .replyPostponed) := by
  decide
theorem test_nameOf_reserved :
    see (exec (.nameOf (some 8#8)) State.reset) State.returned = some (.name .unknownReserved) := by decide
/-- R36. -/
theorem test_frameReset :
    see (exec .frameReset (dataState 3)) (fun t => (t.frame == frameResetValue, t.state, t.dataIdx)) =
      some (true, .data, 3#17) := by decide
/-- V110. -/
theorem test_finalize :
    seeRecord (exec (.finalize (some .timeout) 9#64) (dataState 0)) (fun r => (r.kind, r.valid, r.length)) =
      some (.malformed, false, 2#16) := by decide
/-- V110. -/
theorem test_emit :
    seeRecord (exec .emit { State.reset with frame := { frameResetValue with valid := some true } }) Record.kind =
      some .plain := by decide
theorem test_emit_data :
    seeRecord (exec .emit { State.reset with frame := { frameResetValue with valid := some true, length := 2#16 } })
      Record.kind = some .data := by decide

/-- V114: the payload port after scenario B. -/
theorem test_plRead :
    see (step (late (dataState 3) 0x56#8 1#64)) (fun t => (t.out.payloadCount, t.plRead 0#16, t.plRead 1#16)) =
      some (2#16, 0xAA#8, 0xBB#8) := by decide

/-- V112: display strings. -/
theorem test_display_hex : (hex2 0x05#8, hex4 0x00F1#16) = ("05", "00F1") := by decide
theorem test_display_absent : showField hex2 none = "-" := by decide

/-- R101, V104: the octets of a well-formed frame. -/
theorem test_frameOctets :
    frameOctets 0x06#8 0xFF#8 0x01#8 [0x55#8] =
      [0x55#8, 0xFF#8, 0x06#8, 0xFF#8, 0x01#8, 0x00#8, 0x01#8, 0x82#8, 0x55#8, 0x50#8, 0xF5#8] := by decide

/-- A word placed for the host runs as the first operation after reset. -/
theorem test_placed_hCrc : decode (State.reset.withFetchWord 16 0x558C).word = .ok (.hCrc 0x8C#8) := by decide
theorem test_placed_dTimeout : decode (State.reset.withFetchWord 16 0x7A00).word = .ok .dTimeout := by decide

/-! ### Witnesses: states that meet the hypotheses of the obligations -/

theorem headerState_shape (k : Fin 6) : HeaderShape (headerState k).frame (headerState k).hdrIdx.toNat := by
  fin_cases k <;>
    exact ⟨by decide, by decide, by decide, by decide, by decide, by decide, by decide, by decide⟩

theorem dataState_shape (j : Fin 4) : DataShape (dataState j).frame (dataState j).dataIdx.toNat := by
  fin_cases j <;> exact ⟨by decide, by decide, by decide, by decide, by decide, by decide, by decide⟩

theorem dataState_store : ∀ j : Fin 4, Memory.wf (dataState j).payload = true := by decide

theorem dataState_count : ∀ j : Fin 4, (dataState j).frame.payloadCount.toNat ≤ 2 := by decide

theorem dataState_written : ∀ (j : Fin 4) (a : Fin 2), a.val < (dataState j).frame.payloadCount.toNat →
    (Memory.read (dataState j).payload a).isSome := by decide

theorem inv_resting (s : State) (hm : s.payload = []) (hs : s.state = .idle ∨ s.state = .preamble)
    (hh : s.hdrIdx = 0#3) (hd : s.dataIdx = 0#17)
    (hf : s.frame = { frameResetValue with startTime := s.frame.startTime }) : Machine.Inv s where
  store := by rw [hm]; rfl
  hdrIdle _ := hh
  dataIdle _ := hd
  undecided := by rw [hf]; exact ⟨rfl, rfl, rfl⟩
  resting _ := hf
  inHeader h := by rcases hs with e | e <;> rw [e] at h <;> cases h
  inData h := by rcases hs with e | e <;> rw [e] at h <;> cases h
  written a h := by rw [hf] at h; exact absurd h (Nat.not_lt_zero a)

theorem inv_atReset (pins : List Pins) : Machine.Inv { State.reset with inputs := pins } :=
  inv_resting _ rfl (.inl rfl) rfl rfl rfl

theorem inv_preamble (pins : List Pins) : Machine.Inv { preambleState with inputs := pins } :=
  inv_resting _ rfl (.inr rfl) rfl rfl rfl

theorem inv_header (k : Fin 6) (pins : List Pins) : Machine.Inv { headerState k with inputs := pins } where
  store := rfl
  hdrIdle h := absurd rfl h
  dataIdle _ := rfl
  undecided := ⟨rfl, rfl, rfl⟩
  resting h := by rcases h with h | h <;> cases h
  inHeader _ := headerState_shape k
  inData h := by cases h
  written a h := absurd h (Nat.not_lt_zero a)

theorem inv_data (j : Fin 4) (pins : List Pins) : Machine.Inv { dataState j with inputs := pins } where
  store := dataState_store j
  hdrIdle _ := rfl
  dataIdle h := absurd rfl h
  undecided := ⟨rfl, rfl, rfl⟩
  resting h := by rcases h with h | h <;> cases h
  inHeader h := by cases h
  inData _ := dataState_shape j
  written a h := dataState_written j ⟨a, lt_of_lt_of_le h (dataState_count j)⟩ h

theorem headerState_crc : ∀ k : Fin 6, (headerState k).frame.headerCrcRunning =
    crc8Fold ((headerState k).frame.headerSoFar (headerState k).hdrIdx.toNat) Config.hcrcSeed := by decide

theorem dataState_crc : ∀ j : Fin 4,
    crc8Fold ((dataState j).frame.headerSoFar 5 ++ (dataState j).frame.headerCrcReceived.toList) Config.hcrcSeed =
        Config.hcrcGood ∧
      (dataState j).frame.dataCrcRunning = crc16Fold (dataState j).dataSoFar Config.dcrcSeed := by decide

theorem crcInv_header (k : Fin 6) (pins : List Pins) : CrcInv { headerState k with inputs := pins } where
  inHeader _ := headerState_crc k
  inData h := by cases h

theorem crcInv_data (j : Fin 4) (pins : List Pins) : CrcInv { dataState j with inputs := pins } where
  inHeader h := by cases h
  inData _ := dataState_crc j

/-- The data states with a last octet that ends scenario B well. -/
def lastOctet : State := late (dataState 3) 0x56#8 1#64

theorem lastOctet_inv : Machine.Inv lastOctet := inv_data 3 _

theorem test_witness_PTimeoutCompletes : Machine.Inv preambleState ∧ preambleState.state = .preamble :=
  ⟨inv_preamble [], rfl⟩

theorem test_witness_HTimeoutCompletes_0 : Machine.Inv (headerState 0) ∧ (headerState 0).state = .header :=
  ⟨inv_header 0 [], rfl⟩

theorem test_witness_HTimeoutCompletes_5 : Machine.Inv (headerState 5) ∧ (headerState 5).state = .header :=
  ⟨inv_header 5 [], rfl⟩

theorem test_witness_DTimeoutCompletes_0 : Machine.Inv (dataState 0) ∧ (dataState 0).state = .data :=
  ⟨inv_data 0 [], rfl⟩

theorem test_witness_DTimeoutCompletes_3 : Machine.Inv (dataState 3) ∧ (dataState 3).state = .data :=
  ⟨inv_data 3 [], rfl⟩

/-- Both clauses on the sum at their boundary: `0xFF00 + 0xFF`. -/
theorem test_witness_HLenloCompletes :
    (0xFF00#16 : Half).toNat + (0xFF#8 : Byte).toNat < 65536 ∧ (0xFF00#16 : Half).toNat % 256 = 0 := by decide

theorem test_witness_HCrcCompletes_bad : crc8 0x72#8 (headerState 5).frame.headerCrcRunning ≠ 0x55#8 := by decide

theorem test_witness_HCrcCompletes_plain :
    crc8 0x8C#8 0x73#8 = 0x55#8 ∧ State.reset.frame.length = 0#16 := by decide

theorem test_witness_HCrcCompletes_data :
    crc8 0x73#8 (headerState 5).frame.headerCrcRunning = 0x55#8 ∧ (headerState 5).frame.length ≠ 0#16 := by decide

theorem test_witness_DPayloadCompletes_first :
    (dataState 0).dataIdx.toNat < (dataState 0).frame.length.toNat ∧
      (dataState 0).frame.payloadCount.toNat = (dataState 0).dataIdx.toNat := by decide

/-- The last cell of the longest frame. -/
def longest (j : Nat) : State :=
  { dataState 0 with
    dataIdx := BitVec.ofNat 17 j
    frame := { (dataState 0).frame with length := 65535#16, payloadCount := BitVec.ofNat 16 (min j 65535) } }

theorem test_witness_DPayloadCompletes_last :
    (longest 65534).dataIdx.toNat < (longest 65534).frame.length.toNat ∧
      (longest 65534).frame.payloadCount.toNat = (longest 65534).dataIdx.toNat := by decide

theorem test_witness_DPayloadCompletes_dispatch :
    (late (dataState 1) 0xBB#8 1#64).state = .data ∧ (late (dataState 1) 0xBB#8 1#64).hasEvent = true ∧
      (late (dataState 1) 0xBB#8 1#64).trip = false := by decide

theorem test_witness_DPayloadFaults : (longest 65535).dataIdx.toNat % 65536 = 65535 := by decide

theorem test_witness_DPayloadFaults_not : (longest 65534).dataIdx.toNat % 65536 ≠ 65535 := by decide

theorem test_witness_DPayloadFaults_dispatched :
    Machine.Inv (late (dataState 1) 0xBB#8 1#64) ∧
      decode (late (dataState 1) 0xBB#8 1#64).word = .ok (.dPayload 0xBB#8) :=
  ⟨inv_data 1 _, by decide⟩

theorem test_witness_DCrc1Completes : (longest 65535).dataIdx.toNat = (longest 65535).frame.length.toNat := by decide

theorem test_witness_DCrc2Completes_good : crc16 0x56#8 (dataState 3).frame.dataCrcRunning = 0xF0B8#16 := by decide

theorem test_witness_DCrc2Completes_bad : crc16 0x57#8 (dataState 3).frame.dataCrcRunning ≠ 0xF0B8#16 := by decide

theorem test_witness_Crc8Completes : (0x0F#8 ^^^ 0xF0#8 : Byte) = 0x00#8 ^^^ 0xFF#8 := by decide

theorem test_witness_NameOfCompletes : (7#8 : Byte).toNat ≤ 7 ∧ 8 ≤ (8#8 : Byte).toNat := by decide

theorem test_witness_EmitCompletes :
    ({ State.reset with frame := { frameResetValue with valid := some true } } : State).frame.valid = some true := by
  decide

theorem test_witness_EmitRefuses : State.reset.frame.valid = none := by decide

theorem test_witness_StepRuns : decode (late (headerState 0) 0x00#8 1#64).word = .ok (.hType 0x00#8) := by decide

/-- The position classes of R91 at their boundaries: 65534, 65535 and 65536 against the longest length. -/
theorem test_witness_DispatchWord_positions :
    (longest 65534).dataIdx.toNat < (longest 65534).frame.length.toNat ∧
      (longest 65535).dataIdx.toNat = (longest 65535).frame.length.toNat ∧
      (longest 65536).dataIdx.toNat = (longest 65536).frame.length.toNat + 1 := by decide

theorem test_witness_DispatchWord_states :
    State.reset.state = .idle ∧ preambleState.state = .preamble ∧ (headerState 5).state = .header ∧
      (longest 65536).state = .data := by decide

theorem test_witness_TripBoundaries_still : (late preambleState 0x00#8 0#64).ts.toNat ≤
    (late preambleState 0x00#8 0#64).lastTime.toNat := by decide

theorem test_witness_TripBoundaries_advance :
    (late preambleState 0x00#8 11#64).state ≠ .idle ∧
      (late preambleState 0x00#8 11#64).lastTime.toNat ≤ (late preambleState 0x00#8 11#64).ts.toNat := by decide

theorem test_witness_TripBoundaries_zero :
    let s := { preambleState with inputs := [Pins.event 0x00#8 101#64 0#64] }
    s.state ≠ .idle ∧ s.cfgTimeout = 0#64 ∧ s.lastTime.toNat < s.ts.toNat := by decide

theorem test_witness_TripBoundaries_never :
    ({ preambleState with inputs := [Pins.event 0x00#8 101#64 0xFFFFFFFFFFFFFFFF#64] } : State).cfgTimeout.toNat =
      2 ^ 64 - 1 := by decide

theorem test_witness_TripBoundaries_idle : State.reset.state = .idle := by decide

/-- Two rows that admit one word. -/
theorem test_witness_OperationMap :
    (opTable.filter (fun r => r.admits 0x48FF#16)).map OpRow.mnemonic = ["P_SYNC", "P_ABANDON"] := by decide

theorem test_witness_UnmatchedWords :
    decode ({ late (headerState 0) 0x00#8 0#64 with hdrIdx := 6#3 } : State).word = .error (.headerPosition 6#3) := by
  decide

theorem test_witness_DecodeEncodeAgree :
    Instr.wellFormed (.pAbandon 0x00#8) = true ∧ encode (.pAbandon 0x00#8) = some 0x4800#16 := by decide

theorem test_witness_DecodedOperations : decode 0x4010#16 = .ok (.iNoise 0x10#8) := by decide

theorem test_witness_PlacedWordRuns : decode 0x7F56#16 = .ok .dTimeout := by decide

theorem test_witness_StepOnAnEvent : (late (headerState 3) 0x00#8 1#64).hasEvent = true := by decide

theorem test_witness_LateOctet :
    (late (headerState 5) 0x73#8 11#64).inputs = [Pins.event 0x73#8 117#64 10#64] ∧
      (late (headerState 5) 0x73#8 11#64).hasEvent = true ∧ (late (headerState 5) 0x73#8 11#64).trip = true := by
  decide

theorem test_witness_InvariantIsKept :
    ∃ t, Machine.Inv (late (dataState 1) 0xBB#8 1#64) ∧ step (late (dataState 1) 0xBB#8 1#64) = .next t :=
  ⟨_, inv_data 1 _, rfl⟩

theorem test_witness_CrcInvariantIsKept :
    ∃ t, Machine.Inv (late (headerState 4) 0x02#8 1#64) ∧ CrcInv (late (headerState 4) 0x02#8 1#64) ∧
      step (late (headerState 4) 0x02#8 1#64) = .next t :=
  ⟨_, inv_header 4 _, crcInv_header 4 _, rfl⟩

theorem test_witness_CrcInvariantIsKept_data :
    ∃ t, Machine.Inv lastOctet ∧ CrcInv lastOctet ∧ step lastOctet = .next t :=
  ⟨_, lastOctet_inv, crcInv_data 3 _, rfl⟩

theorem test_witness_TheMachineNeverStops : Machine.Inv lastOctet := lastOctet_inv

theorem test_witness_SequencingIsTheSumType : Machine.Inv (dataState 3) := inv_data 3 []

/-- The operation that writes a payload cell, and one that writes none. -/
theorem test_witness_RegistersChange :
    ∃ t, Machine.Inv (late (dataState 1) 0xBB#8 1#64) ∧
      decode (late (dataState 1) 0xBB#8 1#64).word = .ok (.dPayload 0xBB#8) ∧
      exec (.dPayload 0xBB#8) (late (dataState 1) 0xBB#8 1#64) = .next t :=
  ⟨_, inv_data 1 _, by decide, rfl⟩

theorem test_witness_RegistersChange_finalizing :
    ∃ t, Machine.Inv lastOctet ∧ decode lastOctet.word = .ok (.dCrc2 0x56#8) ∧
      exec (.dCrc2 0x56#8) lastOctet = .next t :=
  ⟨_, lastOctet_inv, by decide, rfl⟩

theorem test_witness_OutputsFollowTheRecord :
    see (step (late (headerState 0) 0x00#8 1#64)) (fun t => t.outValid) = some false ∧
      (late (headerState 0) 0x00#8 1#64).pins.rst = false := by decide

theorem test_witness_RecordPortsAreStable :
    ∃ t r u, step lastOctet = .next t ∧ t.returned = .record r ∧ step t = .next u ∧ t.pins.rst = false :=
  ⟨_, _, _, rfl, rfl, rfl, rfl⟩

theorem test_witness_EndingsAreReported_silent :
    ∃ t, Machine.Inv (late preambleState 0x00#8 1#64) ∧ step (late preambleState 0x00#8 1#64) = .next t ∧
      (late preambleState 0x00#8 1#64).ending = none :=
  ⟨_, inv_preamble _, rfl, by decide⟩

theorem test_witness_EndingsAreReported :
    ∃ t, Machine.Inv lastOctet ∧ step lastOctet = .next t ∧ lastOctet.ending = some (.data, none) :=
  ⟨_, lastOctet_inv, rfl, by decide⟩

/-- A record of each operation that makes one: P_TIMEOUT, H_TIMEOUT, H_CRC, D_TIMEOUT and D_CRC2. -/
theorem test_witness_Records_pTimeout :
    ∃ t r, Machine.Inv (late preambleState 0x55#8 11#64) ∧ decode (late preambleState 0x55#8 11#64).word = .ok .pTimeout ∧
      exec .pTimeout (late preambleState 0x55#8 11#64) = .next t ∧ t.returned = .record r :=
  ⟨_, _, inv_preamble _, by decide, rfl, rfl⟩

theorem test_witness_Records_hTimeout :
    ∃ t r, Machine.Inv (late (headerState 4) 0x02#8 11#64) ∧
      decode (late (headerState 4) 0x02#8 11#64).word = .ok .hTimeout ∧
      exec .hTimeout (late (headerState 4) 0x02#8 11#64) = .next t ∧ t.returned = .record r :=
  ⟨_, _, inv_header 4 _, by decide, rfl, rfl⟩

theorem test_witness_Records_hCrc :
    ∃ t r, Machine.Inv (late (headerState 5) 0x72#8 1#64) ∧
      decode (late (headerState 5) 0x72#8 1#64).word = .ok (.hCrc 0x72#8) ∧
      exec (.hCrc 0x72#8) (late (headerState 5) 0x72#8 1#64) = .next t ∧ t.returned = .record r :=
  ⟨_, _, inv_header 5 _, by decide, rfl, rfl⟩

theorem test_witness_Records_dTimeout :
    ∃ t r, Machine.Inv (late (dataState 3) 0x56#8 11#64) ∧
      decode (late (dataState 3) 0x56#8 11#64).word = .ok .dTimeout ∧
      exec .dTimeout (late (dataState 3) 0x56#8 11#64) = .next t ∧ t.returned = .record r :=
  ⟨_, _, inv_data 3 _, by decide, rfl, rfl⟩

theorem test_witness_Records_dCrc2 :
    ∃ t r, Machine.Inv lastOctet ∧ decode lastOctet.word = .ok (.dCrc2 0x56#8) ∧
      exec (.dCrc2 0x56#8) lastOctet = .next t ∧ t.returned = .record r :=
  ⟨_, _, lastOctet_inv, by decide, rfl, rfl⟩

theorem test_witness_AcceptedRecords :
    ∃ t r, Machine.Inv lastOctet ∧ CrcInv lastOctet ∧ step lastOctet = .next t ∧ t.returned = .record r ∧
      r.error = none ∧ r.dataBytes ≠ [] :=
  ⟨_, _, lastOctet_inv, crcInv_data 3 _, rfl, rfl, rfl, by decide⟩

theorem test_witness_PayloadPort :
    ∃ t r, Machine.Inv lastOctet ∧ step lastOctet = .next t ∧ t.returned = .record r ∧
      (1#16 : Half).toNat < r.dataBytes.length :=
  ⟨_, _, lastOctet_inv, rfl, rfl, by decide⟩

theorem test_witness_TimesStayOrdered :
    ∃ t r, TimesOrdered lastOctet ∧ HostMonotone lastOctet ∧ step lastOctet = .next t ∧ t.returned = .record r :=
  ⟨_, _, fun _ => by decide, by unfold HostMonotone; decide, rfl, rfl⟩

theorem test_witness_IdleIsSilent :
    ∃ t, ({ State.reset with inputs := [Pins.event 0x55#8 3#64 0#64] } : State).state = .idle ∧
      step { State.reset with inputs := [Pins.event 0x55#8 3#64 0#64] } = .next t ∧
      ({ State.reset with inputs := [Pins.event 0x55#8 3#64 0#64] } : State).hasEvent = true ∧
      ({ State.reset with inputs := [Pins.event 0x55#8 3#64 0#64] } : State).octet = 0x55#8 :=
  ⟨_, rfl, rfl, by decide, by decide⟩

/-- Scenario A, as the host offers it from time 100. -/
def scenarioA : List Pins := eventTrain (frameOctets 0x00#8 0x10#8 0x05#8 []) 100#64 1#64 10#64

/-- Two machines in `Idle` with different pasts, offered the same cycles. -/
theorem test_witness_IdleForgetsThePast :
    ∃ t, Machine.Inv { State.reset with inputs := scenarioA } ∧
      runCycles 8 { State.reset with inputs := scenarioA } = .next t ∧
      ({ State.reset with inputs := scenarioA, lastTime := 77#64 } : State).state = .idle :=
  ⟨_, inv_atReset _, rfl, rfl⟩

theorem test_witness_WellFormedFrame_empty :
    Machine.Inv { State.reset with inputs := scenarioA } ∧
      ({ State.reset with inputs := scenarioA } : State).inputs =
        eventTrain (frameOctets 0x00#8 0x10#8 0x05#8 []) 100#64 1#64 10#64 ++ [] ∧
      (1#64 : Time).toNat ≤ (10#64 : Time).toNat :=
  ⟨inv_atReset _, by decide, by decide⟩

theorem test_witness_WellFormedFrame_silent :
    ∃ v, runCycles 7 { State.reset with inputs := scenarioA } = .next v ∧
      7 < (frameOctets 0x00#8 0x10#8 0x05#8 []).length :=
  ⟨_, rfl, by decide⟩

theorem test_witness_WellFormedFrame_data :
    Machine.Inv { State.reset with
        inputs := eventTrain (frameOctets 0x00#8 0x10#8 0x05#8 [0xAA#8, 0xBB#8]) 100#64 10#64 10#64 ++ scenarioA } ∧
      [0xAA#8, 0xBB#8].length ≤ 65535 ∧ (10#64 : Time).toNat ≤ (10#64 : Time).toNat :=
  ⟨inv_atReset _, by decide, by decide⟩

theorem test_witness_SilenceChangesNothing :
    ∀ p ∈ ({ headerState 0 with inputs := [Pins.quiet, Pins.quiet] } : State).inputs.take 2,
      p.rst = false ∧ p.inValid = false := by decide

/-- Eight events, the most that leave cell 0 alone. -/
theorem test_witness_PayloadWindow :
    ∃ u, Machine.Inv { State.reset with inputs := scenarioA } ∧
      runCycles 8 { State.reset with inputs := scenarioA } = .next u ∧
      ({ State.reset with inputs := scenarioA } : State).eventsIn 8 = 8 + 0 :=
  ⟨_, inv_atReset _, rfl, by decide⟩

theorem test_witness_CrcDetects : (0x00#8 : Byte) ≠ 0xFF#8 := by decide

end Sys2Proof.Tests
end

section
/-! PROOFS. What the registers read after the frame or the record registers are written, and the statements
about RESET, frame_reset and the output side of a step. -/

namespace Sys2Proof.Machine

/-! ### The registers by the group of fields they read -/

/-- The In-Flight Frame registers read the frame and nothing else. -/
theorem readReg_congr_frame {s t : State} (h : t.frame = s.frame) {r : Reg} (hr : r ∈ frameRegs) :
    t.readReg r = s.readReg r := by
  revert r
  simp [frameRegs, State.readReg, h]

/-- The record registers read `out` and nothing else. -/
theorem readReg_congr_out {s t : State} (h : t.out = s.out) {r : Reg} (hr : r ∈ outRegs) :
    t.readReg r = s.readReg r := by
  revert r
  simp [outRegs, State.readReg, h]

/-- A write of the frame is seen in the In-Flight Frame registers only, and what is returned is no register. -/
theorem keepsRegsBut_frameRegs (f : Frame) (v : Returned) (s : State) :
    KeepsRegsBut frameRegs s { s with frame := f, returned := v } := by
  intro r hr
  cases r <;> simp [frameRegs] at hr <;> rfl

/-- The frame_reset column with `start_time` written after it, as an event in `Idle` leaves it (R37). -/
theorem frameIsResetBut_startTime {t : State} {ts : Time}
    (h : t.frame = { frameResetValue with startTime := ts }) : FrameIsResetBut [.startTime] t := by
  intro r hr hne
  have hread : t.readReg r = State.readReg { t with frame := { frameResetValue with startTime := ts } } r :=
    readReg_congr_frame h hr
  rw [hread]
  cases r <;> simp [frameRegs] at hr hne <;> rfl

/-- The frame at `frameResetValue` reads the frame_reset column of R21. -/
theorem frameIsReset_of_frame {t : State} (h : t.frame = frameResetValue) : FrameIsResetBut [] t := by
  intro r hr _
  by_cases hst : r = .startTime
  · simp [hst, Reg.frameResetValue, State.readReg, h, frameResetValue]
  · exact frameIsResetBut_startTime (ts := 0#64) h r hr (by simpa using hst)

/-! ### RESET -/

/-- RESET field by field (R230); the two columns of R21 agree on the In-Flight Frame. -/
theorem exec_reset_eq (s : State) :
    exec .reset s = .next { State.reset with payload := s.payload, inputs := s.inputs, cycle := s.cycle } :=
  rfl

/-- The model's reset state reads the reset column of R21 and R42. -/
theorem readReg_reset (r : Reg) : State.reset.readReg r = r.resetValue := by
  cases r <;> rfl

/-- Settles O2: the reset state reads the reset column, and RESET gives it but for what it does not write. -/
theorem resetReachesResetState : Obligations.ResetReachesResetState :=
  ⟨readReg_reset, exec_reset_eq⟩

/-! ### What a decoded operation is -/

/-- Every row of the operation map builds a dispatched operation (R93, R95). -/
theorem opTable_build_dispatched {r : OpRow} (hr : r ∈ opTable) (octet : Byte) :
    (r.build octet).dispatched = true := by
  revert r
  simp [opTable, Instr.dispatched]

/-- The decoder answers dispatched operations only, so no word selects a sub-function (R95). -/
theorem decode_dispatched {w : BitVec 16} {i : Instr} (h : decode w = .ok i) : i.dispatched = true := by
  obtain ⟨r, hr, _, rfl⟩ := decode_row h
  exact opTable_build_dispatched hr _

/-- Only a cycle with `rst` selects RESET. -/
theorem pins_rst_of_decode_reset {s : State} (h : decode s.word = .ok .reset) : s.pins.rst = true := by
  simpa [CycleChoice, PreambleChoice, HeaderChoice, DataChoice] using decode_word_cases h

/-! ### frame_reset -/

/-- frame_reset as an operation returns nothing to its caller (R36). -/
theorem exec_frameReset_eq (s : State) :
    exec .frameReset s = .next (returnValue .nothing (frameReset s)) := rfl

/-- Settles O23: frame_reset field by field, and the operations that end with it. -/
theorem frameResetCompletes : Obligations.FrameResetCompletes := by
  refine ⟨fun s => ?_, fun octet s => ?_, fun err ts s => ?_, fun w hw => ?_⟩
  · exact ⟨_, exec_frameReset_eq s, frameIsReset_of_frame rfl,
      keepsRegsBut_frameRegs frameResetValue .nothing s, fun _ => rfl, ⟨rfl, rfl⟩, rfl, rfl⟩
  · exact ⟨_, _, _, rfl, rfl, rfl, frameIsResetBut_startTime (ts := s.ts) rfl,
      frameIsResetBut_startTime (ts := s.ts) rfl, frameIsReset_of_frame rfl⟩
  · exact ⟨_, rfl, frameIsReset_of_frame (finalize_frame s err ts)⟩
  · exact absurd (decode_dispatched hw) (by decide)

/-! ### The output side of a step (R42, R43) -/

/-- `out_*` as latched from a record show it (R42), where its payload is short enough for a 16-bit count. -/
theorem outShows_of_latch {t : State} {r : Record} (hout : t.out = latch r) (hlen : r.dataBytes.length < 2 ^ 16) :
    OutShows t r := by
  simpa [OutShows, State.readReg, hout, latch] using hlen

/-- finalize raises `out_valid`, and `out_*` show the record it returns (R180). -/
theorem finalize_outputsAgree (err : Option FrameError) (ts : Time) (s : State) :
    OutputsAgree (finalize err ts s) := by
  have hlen : (finalRecord err ts s).dataBytes.length < 2 ^ 16 := by
    rw [finalRecord_dataBytes, payloadBytes_length]
    exact s.frame.payloadCount.isLt
  exact .inl ⟨rfl, _, rfl, outShows_of_latch rfl hlen⟩

/-- What a dispatched operation other than RESET does to the output side: it makes no record and leaves `out_*`
alone, or it ends in finalize. -/
theorem exec_outputs {i : Instr} {s t : State} (hd : i.dispatched = true) (hi : i ≠ .reset)
    (h : exec i s = .next t) :
    (NoRecord t ∧ t.out = s.out) ∨ ∃ err ts u, t = finalize err ts u := by
  cases i with
  | reset => exact absurd rfl hi
  | hold | iStart | iNoise | pSync | pRepeat | pAbandon | hType | hDst | hSrc | hLenhi | hLenlo | dCrc1 =>
    obtain rfl := Host.Outcome.next.inj h
    exact .inl ⟨⟨rfl, rfl⟩, rfl⟩
  | pTimeout | hTimeout | dTimeout =>
    obtain rfl := Host.Outcome.next.inj h
    exact .inr ⟨_, _, _, rfl⟩
  | hCrc octet =>
    rcases execHCrc_cases octet s with ⟨_, he⟩ | ⟨_, _, he⟩ | ⟨_, _, he⟩ <;>
      obtain rfl := Host.Outcome.next.inj (he.symm.trans h)
    · exact .inr ⟨_, _, _, rfl⟩
    · exact .inr ⟨_, _, _, rfl⟩
    · exact .inl ⟨⟨rfl, rfl⟩, rfl⟩
  | dPayload octet =>
    obtain ⟨_, rfl⟩ := execDPayload_next h
    exact .inl ⟨⟨rfl, rfl⟩, rfl⟩
  | dCrc2 octet =>
    rcases execDCrc2_cases octet s with ⟨_, he⟩ | ⟨_, he⟩ <;>
      obtain rfl := Host.Outcome.next.inj (he.symm.trans h) <;>
      exact .inr ⟨_, _, _, rfl⟩
  | crc8 | crc16 | nameOf | frameReset | finalize | emit => simp [Instr.dispatched] at hd

/-- RESET makes no record (R230). -/
theorem exec_reset_noRecord {s t : State} (h : exec .reset s = .next t) : NoRecord t := by
  obtain rfl := Host.Outcome.next.inj h
  exact ⟨rfl, rfl⟩

/-- The end of a cycle changes nothing on the output side. -/
theorem endCycle_outputsAgree {t : State} (h : OutputsAgree t) : OutputsAgree (endCycle t) := h

/-- Settles O44: a RESET is silent, and every other operation is silent with `out_*` kept or ends in finalize. -/
theorem outputsFollowTheRecord : Obligations.OutputsFollowTheRecord := by
  intro s t hstep
  obtain ⟨i, u, hdec, hexec, rfl⟩ := step_next hstep
  by_cases hi : i = .reset
  · subst hi
    refine ⟨endCycle_outputsAgree (.inr (exec_reset_noRecord hexec)), fun hrst => ?_⟩
    simp [pins_rst_of_decode_reset hdec] at hrst
  · rcases exec_outputs (decode_dispatched hdec) hi hexec with ⟨hnone, hout⟩ | ⟨err, ts, v, rfl⟩
    · exact ⟨endCycle_outputsAgree (.inr hnone), fun _ _ r hr => readReg_congr_out hout hr⟩
    · exact ⟨endCycle_outputsAgree (finalize_outputsAgree err ts v), fun _ hvalid => by simp at hvalid⟩

end Sys2Proof.Machine
end

section
/-! PROOFS. What a finalizing operation takes from the payload side of the state, and the statement about the
payload read port. -/

namespace Sys2Proof.Machine

/-! ### What a finalizing operation finalizes -/

/-- The payload side of a state, from which a record takes `data_bytes` (R183): the cells and how many of them
are the architectural payload (R50). -/
def SamePayload (s u : State) : Prop :=
  u.payload = s.payload ∧ u.frame.payloadCount = s.frame.payloadCount

/-- A dispatched operation that returns a record ends in finalize, on a state whose payload side it has not
touched: D_PAYLOAD, which alone writes it, makes no record (R171). -/
theorem exec_record {i : Instr} {s t : State} {r : Record} (hd : i.dispatched = true)
    (h : exec i s = .next t) (hr : t.returned = .record r) :
    ∃ err ts u, t = finalize err ts u ∧ SamePayload s u := by
  cases i with
  | reset | hold | iStart | iNoise | pSync | pRepeat | pAbandon | hType | hDst | hSrc | hLenhi | hLenlo | dCrc1 =>
    obtain rfl := Host.Outcome.next.inj h
    cases hr
  | pTimeout | hTimeout | dTimeout =>
    obtain rfl := Host.Outcome.next.inj h
    exact ⟨_, _, _, rfl, rfl, rfl⟩
  | hCrc octet =>
    rcases execHCrc_cases octet s with ⟨_, he⟩ | ⟨_, _, he⟩ | ⟨_, _, he⟩ <;>
      obtain rfl := Host.Outcome.next.inj (he.symm.trans h)
    · exact ⟨_, _, _, rfl, rfl, rfl⟩
    · exact ⟨_, _, _, rfl, rfl, rfl⟩
    · cases hr
  | dPayload octet =>
    obtain ⟨_, rfl⟩ := execDPayload_next h
    cases hr
  | dCrc2 octet =>
    rcases execDCrc2_cases octet s with ⟨_, he⟩ | ⟨_, he⟩ <;>
      obtain rfl := Host.Outcome.next.inj (he.symm.trans h) <;>
      exact ⟨_, _, _, rfl, rfl, rfl⟩
  | crc8 | crc16 | nameOf | frameReset | finalize | emit => simp [Instr.dispatched] at hd

/-- A step that returns a record has finalized, on the payload side it started from. -/
theorem step_record {s t : State} {r : Record} (h : step s = .next t) (hr : t.returned = .record r) :
    ∃ err ts u, t = endCycle (finalize err ts u) ∧ SamePayload s u := by
  obtain ⟨i, v, hdec, hexec, rfl⟩ := step_next h
  obtain ⟨err, ts, u, rfl, hsame⟩ := exec_record (decode_dispatched hdec) hexec hr
  exact ⟨err, ts, u, rfl, hsame⟩

/-! ### The payload read port (R66) -/

/-- The count finalize latches is that of the frame: it fits its 16 bits (R42). -/
theorem finalize_out_payloadCount (err : Option FrameError) (ts : Time) (s : State) :
    (finalize err ts s).out.payloadCount = s.frame.payloadCount := by
  simp [latch]

/-- Below `out_payload_count` the port shows what was written to the cell. -/
theorem plRead_of_read {s : State} {a : Half} {v : Byte} (ha : a.toNat < s.out.payloadCount.toNat)
    (h : Memory.read s.payload a.toNat = some v) : s.plRead a = v := by
  rw [State.plRead, if_pos ha, cell_of_read h]

/-- Settles O50: finalize latches the count and keeps the cells, and a good state has written every cell below
the count, so that both the record and the port give what was written, in whichever cycle they read it. -/
theorem payloadPortShowsTheRecord : Obligations.PayloadPortShowsTheRecord := by
  intro s t r hinv hstep hret a ha
  obtain ⟨err, ts, u, rfl, hcells, hcount⟩ := step_record hstep hret
  obtain rfl : finalRecord err ts u = r := Returned.record.inj hret
  have hlt : a.toNat < u.frame.payloadCount.toNat := by simpa using ha
  obtain ⟨v, hv⟩ : ∃ v, Memory.read u.payload a.toNat = some v := by
    rw [hcells]
    exact Option.isSome_iff_exists.mp (hinv.written _ (hcount ▸ hlt))
  have hport : (endCycle (finalize err ts u)).plRead a = v :=
    plRead_of_read (by rwa [endCycle_out, finalize_out_payloadCount]) hv
  rw [hport, finalRecord_dataBytes, payloadBytes_get _ _ _ hlt, cell_of_read hv]

end Sys2Proof.Machine
end

section
/-! PROOFS. The operation map read by its field columns, the encoder against the decoder, and the layout of
the dispatch word. -/

namespace Sys2Proof.Machine

/-! ### The decoder by the field columns (R93), one equation per group of rows -/

/-- A mask of ones in the octet field tests the whole octet. -/
theorem octet_and_255 (octet : Byte) : octet &&& 255#8 = octet := BitVec.and_allOnes

/-- Row 1: RESET is selected by `rst` alone. -/
theorem toOption_decode_rst (inValid trip : Bool) (st : BitVec 2) (pos : BitVec 3) (octet : Byte) :
    (decode (packWord true inValid trip st pos octet)).toOption = some .reset := by
  rw [decode_packWord]
  simp [opTable, admits_packWord, wordRst, wordInValid, wordTrip, wordState, wordPos, wordOctet]

/-- Row 2: HOLD is selected by `rst` and `in_valid` alone. -/
theorem toOption_decode_quiet (trip : Bool) (st : BitVec 2) (pos : BitVec 3) (octet : Byte) :
    (decode (packWord false false trip st pos octet)).toOption = some .hold := by
  rw [decode_packWord]
  simp [opTable, admits_packWord, wordRst, wordInValid, wordTrip, wordState, wordPos, wordOctet]

/-- Rows 3 and 4: in `Idle` the trip bit and the position play no part. -/
theorem toOption_decode_idle (trip : Bool) (pos : BitVec 3) (octet : Byte) :
    (decode (packWord false true trip 0#2 pos octet)).toOption =
      some (if octet = 0x55#8 then .iStart else .iNoise octet) := by
  rw [decode_packWord]
  by_cases h : octet = 0x55#8 <;>
    simp [opTable, admits_packWord, wordRst, wordInValid, wordTrip, wordState, wordPos, wordOctet, octet_and_255, h]

/-- Rows 5 to 8: in `Preamble` the position plays no part. -/
theorem toOption_decode_preamble (trip : Bool) (pos : BitVec 3) (octet : Byte) :
    (decode (packWord false true trip 1#2 pos octet)).toOption =
      some (if trip then .pTimeout else if octet = 0xFF#8 then .pSync else if octet = 0x55#8 then .pRepeat
        else .pAbandon octet) := by
  rw [decode_packWord]
  cases trip with
  | true =>
    simp [opTable, admits_packWord, wordRst, wordInValid, wordTrip, wordState, wordPos, wordOctet]
  | false =>
    by_cases hff : octet = 0xFF#8
    · simp [opTable, admits_packWord, wordRst, wordInValid, wordTrip, wordState, wordPos, wordOctet, hff]
    · by_cases h55 : octet = 0x55#8 <;>
        simp [opTable, admits_packWord, wordRst, wordInValid, wordTrip, wordState, wordPos, wordOctet,
          octet_and_255, hff, h55]

/-- Rows 9 to 15: `Header` goes by the trip bit and then by the position, and no row has the positions 6 and 7. -/
theorem toOption_decode_header (trip : Bool) (pos : BitVec 3) (octet : Byte) :
    (decode (packWord false true trip 2#2 pos octet)).toOption =
      opByFields false true trip 2 pos.toNat octet := by
  rw [decode_packWord]
  cases trip <;> rcases three_bits_cases pos with rfl | rfl | rfl | rfl | rfl | rfl | rfl | rfl <;>
    simp [opTable, admits_packWord, wordRst, wordInValid, wordTrip, wordState, wordPos, wordOctet, opByFields]

/-- Rows 16 to 19: `Data` goes by the trip bit and then by the position class, and no row has the classes 3
to 7. -/
theorem toOption_decode_data (trip : Bool) (pos : BitVec 3) (octet : Byte) :
    (decode (packWord false true trip 3#2 pos octet)).toOption =
      opByFields false true trip 3 pos.toNat octet := by
  rw [decode_packWord]
  cases trip <;> rcases three_bits_cases pos with rfl | rfl | rfl | rfl | rfl | rfl | rfl | rfl <;>
    simp [opTable, admits_packWord, wordRst, wordInValid, wordTrip, wordState, wordPos, wordOctet, opByFields]

/-- The masks and matches in priority order select what the field columns say, for every word. -/
theorem toOption_decode (rst inValid trip : Bool) (st : BitVec 2) (pos : BitVec 3) (octet : Byte) :
    (decode (packWord rst inValid trip st pos octet)).toOption =
      opByFields rst inValid trip st.toNat pos.toNat octet := by
  cases rst with
  | true => exact toOption_decode_rst inValid trip st pos octet
  | false =>
    cases inValid with
    | false => exact toOption_decode_quiet trip st pos octet
    | true =>
      rcases two_bits_cases st with rfl | rfl | rfl | rfl
      · exact toOption_decode_idle trip pos octet
      · exact toOption_decode_preamble trip pos octet
      · exact toOption_decode_header trip pos octet
      · exact toOption_decode_data trip pos octet

/-! ### Rows that admit one word -/

/-- Two rows that admit one word agree wherever both masks test it. -/
theorem patterns_agree_of_admits {r1 r2 : OpRow} {w : BitVec 16} (h1 : r1.admits w = true)
    (h2 : r2.admits w = true) : r1.pattern &&& r2.mask = r2.pattern &&& r1.mask := by
  rw [OpRow.admits, beq_iff_eq] at h1 h2
  rw [← h1, ← h2, BitVec.and_assoc, BitVec.and_assoc, BitVec.and_comm r1.mask]

/-- The rows of the operation map whose patterns agree wherever both masks test: a row with itself, and the pairs
for which R93 says that priority matters. -/
theorem opTable_overlaps : ∀ r1 ∈ opTable, ∀ r2 ∈ opTable, r1.pattern &&& r2.mask = r2.pattern &&& r1.mask →
    r1.mnemonic = r2.mnemonic ∨
    (r1.mnemonic, r2.mnemonic) ∈ [("I_START", "I_NOISE"), ("I_NOISE", "I_START"), ("P_SYNC", "P_ABANDON"),
      ("P_ABANDON", "P_SYNC"), ("P_REPEAT", "P_ABANDON"), ("P_ABANDON", "P_REPEAT")] := by
  decide

/-- Settles O30: the decoder's equations, and a comparison of the table's rows pair by pair. -/
theorem operationMapFollowsItsFields : Obligations.OperationMapFollowsItsFields :=
  ⟨toOption_decode, fun _ r1 h1 r2 h2 ha1 ha2 =>
    opTable_overlaps r1 h1 r2 h2 (patterns_agree_of_admits ha1 ha2)⟩

/-! ### The encoder against the decoder -/

/-- A word given by its fields decodes to what the field columns say. -/
theorem decode_of_opByFields {rst inValid trip : Bool} {st : BitVec 2} {pos : BitVec 3} {octet : Byte} {i : Instr}
    (h : opByFields rst inValid trip st.toNat pos.toNat octet = some i) :
    decode (packWord rst inValid trip st pos octet) = .ok i :=
  decode_ok_iff.mpr ((toOption_decode rst inValid trip st pos octet).trans h)

/-- A well-formed operation is decoded from its own word. The rows whose octet column says "other" stand below
rows that take the excluded octets, so they need that the octet is none of these. -/
theorem decode_encode {i : Instr} {w : BitVec 16} (hwf : i.wellFormed = true) (hw : encode i = some w) :
    decode w = .ok i := by
  cases i with
  | iNoise octet =>
    obtain rfl := Option.some.inj hw
    have h55 : octet ≠ 0x55#8 := by simpa [Instr.wellFormed, noiseOctetOk, Config.preamble1] using hwf
    exact decode_of_opByFields (by simp [opByFields, h55])
  | pAbandon octet =>
    obtain rfl := Option.some.inj hw
    obtain ⟨hff, h55⟩ : octet ≠ 0xFF#8 ∧ octet ≠ 0x55#8 := by
      simpa [Instr.wellFormed, abandonOctetOk, Config.preamble1, Config.preamble2] using hwf
    exact decode_of_opByFields (by simp [opByFields, hff, h55])
  | reset | hold | iStart | pTimeout | pSync | pRepeat | hTimeout | hType | hDst | hSrc | hLenhi | hLenlo | hCrc
  | dTimeout | dPayload | dCrc1 | dCrc2 =>
    obtain rfl := Option.some.inj hw
    exact decode_of_opByFields rfl
  | crc8 | crc16 | nameOf | frameReset | finalize | emit => cases hw

/-- The operations with a word are the dispatched ones (R95). -/
theorem encode_isSome (i : Instr) : (encode i).isSome = i.dispatched := by
  cases i <;> rfl

/-- Settles O32: decoding inverts the encoder, which has a word for the dispatched operations only. -/
theorem decodeEncodeAgree : Obligations.DecodeEncodeAgree :=
  ⟨fun _ _ => decode_encode, fun i => by rw [← encode_isSome, Option.isSome_iff_exists]⟩

/-! ### The dispatch word as a number -/

/-- Two words side by side as a number. -/
theorem toNat_append_eq_add {m n : Nat} (x : BitVec m) (y : BitVec n) :
    (x ++ y).toNat = x.toNat * 2 ^ n + y.toNat := by
  rw [BitVec.toNat_append, ← Nat.shiftLeft_add_eq_or_of_lt y.isLt, Nat.shiftLeft_eq]

/-- The fields of a word at their bits (R90). -/
theorem packWord_toNat (rst inValid trip : Bool) (st : BitVec 2) (pos : BitVec 3) (octet : Byte) :
    (packWord rst inValid trip st pos octet).toNat =
      rst.toNat * 32768 + inValid.toNat * 16384 + trip.toNat * 8192 + st.toNat * 2048 + pos.toNat * 256 +
        octet.toNat := by
  simp only [packWord, toNat_append_eq_add, BitVec.toNat_ofBool]
  omega

/-- The position class below `length` (R91). -/
theorem dataClass_of_lt {idx : Idx17} {length : Half} (h : idx.toNat < length.toNat) :
    dataClass idx length = 0#3 := by
  simp [dataClass, h]

/-- The position class at `length` (R91). -/
theorem dataClass_of_eq {idx : Idx17} {length : Half} (h : idx.toNat = length.toNat) :
    dataClass idx length = 1#3 := by
  simp [dataClass, h]

/-- The position class one above `length` (R91). -/
theorem dataClass_of_eq_succ {idx : Idx17} {length : Half} (h : idx.toNat = length.toNat + 1) :
    dataClass idx length = 2#3 := by
  simp [dataClass, h]

/-- Before a header there is no position (R91). -/
theorem posClass_of_resting {s : State} (h : s.state = .idle ∨ s.state = .preamble) : s.posClass = 0#3 := by
  rcases h with h | h <;> simp [State.posClass, h]

/-- In `Header` the position is `hdr_idx` (R91). -/
theorem posClass_of_header {s : State} (h : s.state = .header) : s.posClass = s.hdrIdx := by
  simp [State.posClass, h]

/-- In `Data` the position is the class of `data_idx` against `length` (R91). -/
theorem posClass_of_data {s : State} (h : s.state = .data) :
    s.posClass = dataClass s.dataIdx s.frame.length := by
  simp [State.posClass, h]

/-- When an event trips (R92, R135). -/
theorem trip_iff (s : State) :
    s.trip = true ↔ s.state ≠ .idle ∧ s.lastTime.toNat < s.ts.toNat ∧
      s.cfgTimeout.toNat < s.ts.toNat - s.lastTime.toNat := by
  simp [State.trip, gapExceeds]

/-- Settles O28: the word's number is that of its fields, whose position and trip bit are those of the state. -/
theorem dispatchWordLayout : Obligations.DispatchWordLayout := fun s =>
  ⟨s.trip, s.posClass, packWord_toNat s.pins.rst s.pins.inValid s.trip s.state.code s.posClass s.octet,
    posClass_of_resting, posClass_of_header,
    fun hs h => (posClass_of_data hs).trans (dataClass_of_lt h),
    fun hs h => (posClass_of_data hs).trans (dataClass_of_eq h),
    fun hs h => (posClass_of_data hs).trans (dataClass_of_eq_succ h),
    trip_iff s⟩

end Sys2Proof.Machine
end

section
/-! PROOFS. The header CRC engine: its table is what the bit-serial generator makes, whose entries are all
different, so the step is a bijection in the accumulator; the operation reads one entry and touches no register. -/

namespace Sys2Proof.Machine

/-! ### A returned value is no register -/

/-- Returning a value to the caller changes no register. -/
theorem returnValue_keepsRegs (v : Returned) (s : State) : KeepsRegsBut [] s (returnValue v s) :=
  fun _ _ => rfl

/-! ### The bit-serial generator of the table (R113) -/

/-- Repeating an injective function is injective. -/
theorem repeat_injective {α : Type} {f : α → α} (hf : Function.Injective f) :
    ∀ n, Function.Injective (Nat.repeat f n)
  | 0 => Function.injective_id
  | n + 1 => hf.comp (repeat_injective hf n)

/-- The feedback constant sets the bit that the shift frees, so that bit tells which bit was shifted out. -/
theorem crc8SerialBit_top (c : Byte) : (crc8SerialBit c).getLsbD 7 = c.getLsbD 0 := by
  cases hlow : c.getLsbD 0 <;> rw [crc8SerialBit, hlow] <;> simp

/-- No bit is lost in one bit of the generator: the lowest is the top bit of the result, the others are shifted. -/
theorem crc8SerialBit_injective : Function.Injective crc8SerialBit := by
  intro c d h
  have hlow : c.getLsbD 0 = d.getLsbD 0 := by
    rw [← crc8SerialBit_top, ← crc8SerialBit_top, h]
  have hshift : c >>> 1 = d >>> 1 := by
    unfold crc8SerialBit at h
    rw [hlow] at h
    split at h
    · exact (BitVec.xor_left_inj _).mp h
    · exact h
  refine BitVec.eq_of_getLsbD_eq fun i _ => ?_
  cases i with
  | zero => exact hlow
  | succ k => simpa [Nat.add_comm] using congrArg (fun x => x.getLsbD k) hshift

/-- The generator answers different entries for different indices. -/
theorem crc8Serial_injective : Function.Injective crc8Serial :=
  repeat_injective crc8SerialBit_injective 8

/-! ### The table (R112, R116) -/

/-- Every index of eight bits is inside the table, so the read answers the entry there. -/
theorem crc8Rom_getElem? (a : Byte) : crc8Rom[a.toNat]? = some (crc8RomRead a) := by
  have ha : a.toNat < crc8Rom.length := crc8Rom_length ▸ a.isLt
  rw [crc8RomRead, List.getD_eq_getElem _ _ ha, List.getElem?_eq_getElem ha]

/-- The table is what the generator of R113 makes, entry by entry. -/
theorem crc8Rom_eq_serial : crc8Rom = (List.range 256).map fun i => crc8Serial (BitVec.ofNat 8 i) := by
  decide +kernel

/-- A read of the table is a run of the generator. -/
theorem crc8RomRead_eq_serial (a : Byte) : crc8RomRead a = crc8Serial a := by
  have hentry := crc8Rom_getElem? a
  rw [crc8Rom_eq_serial, List.getElem?_map, List.getElem?_range a.isLt] at hentry
  simpa using hentry.symm

/-- The 256 entries are all different (R116). -/
theorem crc8RomRead_injective : Function.Injective crc8RomRead := by
  rw [funext crc8RomRead_eq_serial]
  exact crc8Serial_injective

/-! ### The step (R110) -/

/-- The step depends on the XOR of its operands only. -/
theorem crc8_congr_xor {b c b' c' : Byte} (h : b ^^^ c = b' ^^^ c') : crc8 b c = crc8 b' c' := by
  rw [crc8, crc8, BitVec.xor_comm c, BitVec.xor_comm c', h]

/-- Equal operands select entry 0, which is zero. -/
theorem crc8_self (b : Byte) : crc8 b b = 0x00#8 := by
  rw [crc8, BitVec.xor_self]
  rfl

/-- A zero octet selects the entry at the accumulator. -/
theorem crc8_zero_left (c : Byte) : crc8 0x00#8 c = crc8RomRead c := by
  rw [crc8, BitVec.xor_zero]

/-- For a fixed octet, different accumulators select different entries. -/
theorem crc8_injective (b : Byte) : Function.Injective (crc8 b) :=
  fun _ _ h => (BitVec.xor_left_inj b).mp (crc8RomRead_injective h)

/-- On the finite set of octets injective is bijective (R116). -/
theorem crc8_bijective (b : Byte) : Function.Bijective (crc8 b) :=
  Finite.injective_iff_bijective.mp (crc8_injective b)

/-! ### The operation -/

/-- crc8 as an operation returns its octet and does nothing else (R110). -/
theorem exec_crc8_eq (byte crcIn : Byte) (s : State) :
    exec (.crc8 byte crcIn) s = .next (returnValue (.octet (crc8 byte crcIn)) s) := rfl

/-- Settles O20: one entry of the table is returned, and the corner cases are those of the step. -/
theorem crc8Completes : Obligations.Crc8Completes := by
  refine ⟨fun byte crcIn s => ?_, crc8_self, fun c => ?_, fun _ _ _ _ => crc8_congr_xor, crc8_bijective,
    fun w byte crcIn hw => ?_⟩
  · exact ⟨_, _, exec_crc8_eq byte crcIn s, returnValue_returned s _, crc8Rom_getElem? (crcIn ^^^ byte),
      returnValue_keepsRegs _ s, fun _ => rfl, rfl, rfl⟩
  · rw [crc8_zero_left, crc8Rom_getElem?]
  · simpa [Instr.dispatched] using decode_dispatched hw

end Sys2Proof.Machine
end

section
/-! PROOFS. The data CRC engine: the step by the two octets of the accumulator, of which the high one reaches
only the low octet of the result. The high octet of the result is therefore that of the table entry, and as no
two entries share theirs it gives back the table index, hence the accumulator (R129). -/

namespace Sys2Proof.Machine

/-! ### The table (R122, R129) -/

/-- Every index of eight bits is inside the table, so the read answers the entry there. -/
theorem crc16Rom_getElem? (a : Byte) : crc16Rom[a.toNat]? = some (crc16RomRead a) := by
  have ha : a.toNat < crc16Rom.length := crc16Rom_length ▸ a.isLt
  rw [crc16RomRead, List.getD_eq_getElem _ _ ha, List.getElem?_eq_getElem ha]

/-- The table index read back from the high octet of an entry: the high octet of entry `i` is `t ^ (t >> 5)`
with `t = i ^ (i << 4)`, and either map on octets undoes itself. -/
def crc16IndexOfHigh (h : Byte) : Byte :=
  let t := h ^^^ (h >>> 5)
  t ^^^ (t <<< 4)

/-- Read back from their high octets, the entries give the indices in order. -/
theorem crc16Rom_map_indexOfHigh :
    (crc16Rom.map fun e => crc16IndexOfHigh (e.extractLsb' 8 8)) = (List.range 256).map (BitVec.ofNat 8) := by
  decide +kernel

/-- The high octet of an entry tells its index. -/
theorem crc16IndexOfHigh_romRead (a : Byte) : crc16IndexOfHigh ((crc16RomRead a).extractLsb' 8 8) = a := by
  have hentry := congrArg (fun l => l[a.toNat]?) crc16Rom_map_indexOfHigh
  rw [List.getElem?_map, List.getElem?_map, crc16Rom_getElem?, List.getElem?_range a.isLt] at hentry
  simpa using hentry

/-- The high octets of the 256 entries are all different (R129). -/
theorem crc16RomRead_high_injective : Function.Injective fun a => (crc16RomRead a).extractLsb' 8 8 :=
  Function.LeftInverse.injective crc16IndexOfHigh_romRead

/-! ### The step by octets (R120) -/

/-- The shifted accumulator is its high octet alone, and the index is formed from its low octet. -/
theorem crc16_eq_octets (b : Byte) (c : Half) :
    crc16 b c = (c.extractLsb' 8 8).setWidth 16 ^^^ crc16RomRead (c.extractLsb' 0 8 ^^^ b) := by
  have hhigh : c >>> 8 = (c.extractLsb' 8 8).setWidth 16 := by
    ext i hi
    suffices c.getLsbD (8 + i) = true → i < 8 by simpa
    intro hbit
    have hwidth : 8 + i < 16 := BitVec.lt_of_getLsbD hbit
    omega
  have hlow : c.setWidth 8 = c.extractLsb' 0 8 := BitVec.setWidth_eq_extractLsb' (by decide)
  rw [crc16, hhigh, hlow]

/-- A zero-extended octet has no high octet. -/
theorem high_setWidth_octet (x : Byte) : (x.setWidth 16).extractLsb' 8 8 = 0#8 := by
  ext i hi
  simp

/-- The accumulator is not in the high octet of the result, which is that of the entry. -/
theorem crc16_high_octet (b : Byte) (c : Half) :
    (crc16 b c).extractLsb' 8 8 = (crc16RomRead (c.extractLsb' 0 8 ^^^ b)).extractLsb' 8 8 := by
  rw [crc16_eq_octets, BitVec.extractLsb'_xor, high_setWidth_octet, BitVec.zero_xor]

/-- An accumulator that is the octet itself selects entry 0, which is zero, and has no high octet. -/
theorem crc16_self (b : Byte) : crc16 b (b.setWidth 16) = 0x0000#16 := by
  have hlow : (b.setWidth 16).extractLsb' 0 8 = b := by
    rw [← BitVec.setWidth_eq_extractLsb' (by decide), BitVec.setWidth_setWidth_of_le _ (by decide),
      BitVec.setWidth_eq]
  rw [crc16_eq_octets, high_setWidth_octet, hlow, BitVec.xor_self]
  rfl

/-- A word is told by its two octets. -/
theorem half_eq_of_octets {c d : Half} (hhigh : c.extractLsb' 8 8 = d.extractLsb' 8 8)
    (hlow : c.extractLsb' 0 8 = d.extractLsb' 0 8) : c = d := by
  refine BitVec.eq_of_getLsbD_eq fun i hi => ?_
  by_cases hi8 : i < 8
  · simpa [hi8] using congrArg (fun x => x.getLsbD i) hlow
  · obtain ⟨k, rfl⟩ : ∃ k, i = 8 + k := ⟨i - 8, by omega⟩
    have hk : k < 8 := by omega
    simpa [hk] using congrArg (fun x => x.getLsbD k) hhigh

/-- For a fixed octet the result tells the accumulator: its high octet the table index, hence the low octet of
the accumulator, and with the entry known its low octet the high one. -/
theorem crc16_injective (b : Byte) : Function.Injective (crc16 b) := by
  intro c d h
  have hindex : c.extractLsb' 0 8 ^^^ b = d.extractLsb' 0 8 ^^^ b :=
    crc16RomRead_high_injective (by simpa only [crc16_high_octet] using congrArg (BitVec.extractLsb' 8 8) h)
  have hhigh : (c.extractLsb' 8 8).setWidth 16 = (d.extractLsb' 8 8).setWidth 16 := by
    rw [crc16_eq_octets, crc16_eq_octets, hindex] at h
    exact (BitVec.xor_left_inj _).mp h
  exact half_eq_of_octets (by simpa using congrArg (BitVec.setWidth 8) hhigh)
    ((BitVec.xor_left_inj b).mp hindex)

/-- On the finite set of accumulators injective is bijective. -/
theorem crc16_bijective (b : Byte) : Function.Bijective (crc16 b) :=
  Finite.injective_iff_bijective.mp (crc16_injective b)

/-! ### The operation -/

/-- crc16 as an operation returns its word and does nothing else (R120). -/
theorem exec_crc16_eq (byte : Byte) (crcIn : Half) (s : State) :
    exec (.crc16 byte crcIn) s = .next (returnValue (.word (crc16 byte crcIn)) s) := rfl

/-- Settles O21: one entry of the table is read, and the corner cases are those of the step. -/
theorem crc16Completes : Obligations.Crc16Completes := by
  refine ⟨fun byte crcIn s => ?_, crc16_self, crc16_bijective, fun w byte crcIn hw => ?_⟩
  · exact ⟨_, _, _, exec_crc16_eq byte crcIn s, returnValue_returned s _, crc16Rom_getElem? _,
      crc16_eq_octets byte crcIn, crc16_high_octet byte crcIn, returnValue_keepsRegs _ s, fun _ => rfl, rfl, rfl⟩
  · simpa [Instr.dispatched] using decode_dispatched hw

end Sys2Proof.Machine
end

section
/-! PROOFS. The Frame Type Registry: a code below the end of NAME_ROM reads the entry there, whose id is its
index, and a code beyond it reads the name of a reserved code; the operation returns the name and touches no
register. -/

namespace Sys2Proof.Machine

/-! ### The names and their ids (R131, R132) -/

theorem nameRom_length : nameRom.length = 8 := rfl

/-- The ids of the entries are their indices (R131). -/
theorem nameRom_map_id : nameRom.map (fun n => n.id.toNat) = List.range 8 := rfl

theorem nameOf_none : nameOf none = .absent := rfl

/-- A code of NAME_ROM is named by its entry. -/
theorem nameRom_getElem? {c : Byte} (hc : c.toNat ≤ 7) : nameRom[c.toNat]? = some (nameOf (some c)) := by
  have hlt : c.toNat < nameRom.length := by rw [nameRom_length]; omega
  rw [nameOf, List.getD_eq_getElem _ _ hlt, List.getElem?_eq_getElem hlt]

/-- The id of a code of NAME_ROM is the code. -/
theorem nameOf_id_toNat {c : Byte} (hc : c.toNat ≤ 7) : (nameOf (some c)).id.toNat = c.toNat := by
  have hentry := congrArg (fun l => l[c.toNat]?) nameRom_map_id
  rw [List.getElem?_map, nameRom_getElem? hc, List.getElem?_range (Nat.lt_succ_of_le hc)] at hentry
  exact Option.some.inj hentry

/-- A code above NAME_ROM is reserved (R132). -/
theorem nameOf_eq_unknownReserved {c : Byte} (hc : 8 ≤ c.toNat) : nameOf (some c) = .unknownReserved :=
  List.getD_eq_default nameRom _ hc

/-! ### The operation -/

/-- name_of as an operation returns its name and does nothing else (R130). -/
theorem exec_nameOf_eq (code : Option Byte) (s : State) :
    exec (.nameOf code) s = .next (returnValue (.name (nameOf code)) s) := rfl

/-- Settles O22: the three cases of a code are no code, an entry of NAME_ROM, and a reserved code. -/
theorem nameOfCompletes : Obligations.NameOfCompletes := by
  refine ⟨fun code s => ?_, fun w code hw => ?_⟩
  · refine ⟨_, _, exec_nameOf_eq code s, returnValue_returned s _, ?absent, ?entry, ?reserved,
      returnValue_keepsRegs _ s, fun _ => rfl, rfl, rfl⟩
    case absent =>
      rintro rfl
      exact ⟨nameOf_none, rfl⟩
    case entry =>
      rintro c rfl hc
      exact ⟨nameRom_getElem? hc, nameOf_id_toNat hc⟩
    case reserved =>
      rintro c rfl hc
      rw [nameOf_eq_unknownReserved hc]
      exact ⟨rfl, rfl⟩
  · simpa [Instr.dispatched] using decode_dispatched hw

end Sys2Proof.Machine
end

section
/-! PROOFS. The operations of `Idle` and `Preamble`: which registers each leaves alone, what finalize makes of the
state it is called in, and the words that select them. -/

namespace Sys2Proof.Machine

/-! ### What an operation leaves unchanged, group by group of registers -/

/-- Every register sequences the machine, holds part of the frame, or holds part of the record (R21, R42). -/
theorem mem_register_groups (r : Reg) : r ∈ sequencingRegs ∨ r ∈ frameRegs ∨ r ∈ outRegs := by
  cases r <;> decide

/-- An operation that makes no record keeps what it keeps of the sequencing registers and of the frame. -/
theorem keepsRegsBut_of_groups {rs : List Reg} {s t : State}
    (hseq : ∀ r ∈ sequencingRegs, r ∉ rs → t.readReg r = s.readReg r)
    (hframe : ∀ r ∈ frameRegs, r ∉ rs → t.readReg r = s.readReg r) (hout : t.out = s.out) :
    KeepsRegsBut rs s t := by
  intro r hr
  rcases mem_register_groups r with h | h | h
  · exact hseq r h hr
  · exact hframe r h hr
  · exact readReg_congr_out hout h

/-- An operation that may write the whole frame has only the sequencing registers to account for. -/
theorem keepsRegsBut_append_frameRegs {rs : List Reg} {s t : State}
    (hseq : ∀ r ∈ sequencingRegs, r ∉ rs → t.readReg r = s.readReg r) (hout : t.out = s.out) :
    KeepsRegsBut (rs ++ frameRegs) s t :=
  keepsRegsBut_of_groups (fun r h hr => hseq r h fun hmem => hr (List.mem_append_left _ hmem))
    (fun _ h hr => absurd (List.mem_append_right _ h) hr) hout

/-! ### The record finalize makes (R180, R183) -/

/-- The field mapping of emit, on every frame (R183, R188). -/
theorem recordMaps_recordOf (v : Bool) (f : Frame) (bytes : List Byte) :
    RecordMaps f v bytes (recordOf v f bytes) where
  malformed h := by
    obtain ⟨e, he⟩ := Option.isSome_iff_exists.mp h
    simp [recordOf, kindOf, he]
  plain he hl := by simp [recordOf, kindOf, he, hl]
  data he hl := by simp [recordOf, kindOf, he, hl]
  error := rfl
  valid := rfl
  frameType := rfl
  frameTypeName := rfl
  dst := rfl
  src := rfl
  length := rfl
  headerCrc := rfl
  headerCrcValid := rfl
  dataBytes := rfl
  dataCrcMsb := rfl
  dataCrcLsb := rfl
  dataCrcBoth m l hm hl := ⟨m ++ l, by simp [recordOf, joinDataCrc, hm, hl], toNat_append_eq_add m l⟩
  dataCrcAbsent h := by
    rcases h with h | h
    · simp [recordOf, joinDataCrc, h]
    · cases hm : f.dataCrcMsb <;> simp [recordOf, joinDataCrc, hm, h]
  startTime := rfl
  endTime := rfl

/-- The verdict finalize writes is that there is no error (R180). -/
theorem validFlag_eq_decide (err : Option FrameError) : validFlag err = decide (err = none) := by
  cases err <;> rfl

/-- What finalize emits is the record of the frame with its three writes applied (R180). -/
theorem emittedFrom_finalRecord (err : Option FrameError) (ts : Time) (s : State) :
    EmittedFrom s.frame (s.payloadBytes s.frame.payloadCount.toNat) err ts (finalRecord err ts s) := by
  unfold EmittedFrom
  rw [← validFlag_eq_decide]
  exact recordMaps_recordOf _ _ _

/-- `out_*` as finalize latches them show the record it returns (R42, R180). -/
theorem finalize_outShows (err : Option FrameError) (ts : Time) (s : State) :
    OutShows (finalize err ts s) (finalRecord err ts s) := by
  rcases finalize_outputsAgree err ts s with ⟨_, r, hret, hshows⟩ | ⟨hvalid, _⟩
  · obtain rfl : finalRecord err ts s = r := Returned.record.inj hret
    exact hshows
  · simp at hvalid

/-- The octets emit lists are those of the payload cells (R183). -/
theorem cellsAre_payloadBytes (s : State) (n : Nat) : CellsAre s n (s.payloadBytes n) :=
  ⟨payloadBytes_length s n, payloadBytes_get s n⟩

/-- finalize called in the state `u`, which an operation has reached from `s` without touching the cells or the
pins (R180). -/
theorem finalizedAs_finalize (err : Option FrameError) (ts : Time) {s u : State} (hcells : u.payload = s.payload)
    (hinputs : u.inputs = s.inputs) (hcycle : u.cycle = s.cycle) :
    FinalizedAs u.frame err ts s (finalize err ts u) := by
  have hbytes : CellsAre s u.frame.payloadCount.toNat (u.payloadBytes u.frame.payloadCount.toNat) := by
    have hcell : u.cell = s.cell := by
      funext a
      simp [State.cell, hcells, hcycle]
    simpa [State.payloadBytes, hcell] using cellsAre_payloadBytes s u.frame.payloadCount.toNat
  exact ⟨⟨_, _, rfl, hbytes, emittedFrom_finalRecord err ts u, finalize_outShows err ts u⟩, rfl, rfl, rfl, rfl,
    frameIsReset_of_frame (finalize_frame u err ts), fun a => congrArg (Memory.read · a) hcells, hinputs, hcycle⟩

/-! ### Idle -/

/-- I_START as an operation (R140). -/
theorem exec_iStart_eq (s : State) : exec .iStart s = .next { idleEvent s with state := .preamble } := rfl

/-- I_NOISE as an operation (R141). -/
theorem exec_iNoise_eq (octet : Byte) (s : State) : exec (.iNoise octet) s = .next (idleEvent s) := rfl

/-- Settles O4: the frame is reset but for `start_time`, and `state` and `last_time` are the only sequencing
registers written besides `out_valid`. -/
theorem iStartCompletes : Obligations.IStartCompletes := by
  refine ⟨fun s => ?_, fun trip pos => decode_of_opByFields (by simp [opByFields])⟩
  exact ⟨_, exec_iStart_eq s, rfl, rfl, rfl, frameIsResetBut_startTime (ts := s.ts) rfl, ⟨rfl, rfl⟩,
    keepsRegsBut_append_frameRegs (by simp [sequencingRegs, State.readReg]) rfl, fun _ => rfl, rfl, rfl⟩

/-- Settles O5: as I_START, with `state` kept too. -/
theorem iNoiseCompletes : Obligations.INoiseCompletes := by
  refine ⟨fun octet s => ?_, fun trip pos octet h55 => decode_of_opByFields (by simp [opByFields, h55])⟩
  exact ⟨_, exec_iNoise_eq octet s, rfl, rfl, frameIsResetBut_startTime (ts := s.ts) rfl, ⟨rfl, rfl⟩,
    keepsRegsBut_append_frameRegs (by simp [sequencingRegs, State.readReg]) rfl, fun _ => rfl, rfl, rfl⟩

/-! ### Preamble -/

/-- P_TIMEOUT as an operation (R143). -/
theorem exec_pTimeout_eq (s : State) :
    exec .pTimeout s = .next (finalize (some .timeout) s.ts (takeTime s)) := rfl

/-- P_SYNC as an operation (R144). -/
theorem exec_pSync_eq (s : State) :
    exec .pSync s = .next (returnNone { takeTime s with
      state := .header
      hdrIdx := 0#3
      frame := { s.frame with headerCrcRunning := Config.hcrcSeed } }) := rfl

/-- P_REPEAT as an operation (R145). -/
theorem exec_pRepeat_eq (s : State) : exec .pRepeat s = .next (returnNone (takeTime s)) := rfl

/-- P_ABANDON as an operation (R146). -/
theorem exec_pAbandon_eq (octet : Byte) (s : State) :
    exec (.pAbandon octet) s = .next (returnNone { frameReset (takeTime s) with state := .idle }) := rfl

/-- Before a header the frame holds a `start_time` and nothing else (R38 (f)). -/
theorem Inv.frame_of_preamble {s : State} (hinv : Inv s) (hs : s.state = .preamble) :
    ∃ start, s.frame = { frameResetValue with startTime := start } :=
  ⟨s.frame.startTime, hinv.resting (.inr hs)⟩

/-- The record of a timeout on a frame that holds nothing but its `start_time` (R192). -/
theorem presenceRow_pTimeout {s u : State} {start : Time} (ts : Time)
    (hu : u.frame = { frameResetValue with startTime := start }) :
    PresenceRow s .pTimeout (finalRecord (some .timeout) ts u) := by
  simp [PresenceRow, hu, frameResetValue, kindOf, joinDataCrc, State.payloadBytes]

/-- Settles O6: P_TIMEOUT is finalize(Timeout, ts), and a good `Preamble` state has an empty frame. -/
theorem pTimeoutCompletes : Obligations.PTimeoutCompletes := by
  refine ⟨fun s => ?_, fun pos octet => decode_of_opByFields (by simp [opByFields])⟩
  refine ⟨_, exec_pTimeout_eq s, finalizedAs_finalize (u := takeTime s) _ _ rfl rfl rfl, rfl, fun hinv hs => ?_⟩
  obtain ⟨start, hframe⟩ := hinv.frame_of_preamble hs
  have hname : nameOf s.frame.frameType = .absent := by rw [hframe]; exact nameOf_none
  exact ⟨_, rfl, presenceRow_pTimeout s.ts (u := takeTime s) hframe, hname, rfl, rfl⟩

/-- Settles O7: of the frame, P_SYNC writes the header accumulator only. -/
theorem pSyncCompletes : Obligations.PSyncCompletes := by
  refine ⟨fun s => ?_, fun pos => decode_of_opByFields (by simp [opByFields])⟩
  exact ⟨_, exec_pSync_eq s, rfl, rfl, rfl, rfl, ⟨rfl, rfl⟩,
    keepsRegsBut_of_groups (by simp [sequencingRegs, State.readReg]) (by simp [frameRegs, State.readReg]) rfl,
    fun _ => rfl, rfl, rfl⟩

/-- Settles O8: P_REPEAT leaves the frame as it is. -/
theorem pRepeatCompletes : Obligations.PRepeatCompletes := by
  refine ⟨fun s => ?_, fun pos => decode_of_opByFields (by simp [opByFields])⟩
  exact ⟨_, exec_pRepeat_eq s, rfl, ⟨rfl, rfl⟩,
    keepsRegsBut_of_groups (by simp [sequencingRegs, State.readReg])
      (fun _ h _ => readReg_congr_frame (s := s) (t := returnNone (takeTime s)) rfl h) rfl,
    fun _ => rfl, rfl, rfl⟩

/-- Settles O9: P_ABANDON resets the frame, `start_time` too. -/
theorem pAbandonCompletes : Obligations.PAbandonCompletes := by
  refine ⟨fun octet s => ?_, fun pos octet hff h55 => decode_of_opByFields (by simp [opByFields, hff, h55])⟩
  exact ⟨_, exec_pAbandon_eq octet s, rfl, rfl, frameIsReset_of_frame rfl, ⟨rfl, rfl⟩,
    keepsRegsBut_append_frameRegs (by simp [sequencingRegs, State.readReg]) rfl, fun _ => rfl, rfl, rfl⟩

end Sys2Proof.Machine
end

section
/-! PROOFS. A cycle whose event trips: whatever the receive state, it finalizes as Timeout, and its octet plays no
part. -/

namespace Sys2Proof.Machine

/-- A step whose operation answers a next state ends the cycle there. -/
theorem step_of_exec {s u : State} {i : Instr} (hdec : decode s.word = .ok i) (hexec : exec i s = .next u) :
    step s = .next (endCycle u) := by
  simp [step, runCycle, hdec, hexec, onNext]

/-- A cycle carries an event exactly where `rst` is 0 and `in_valid` is 1 (R89, R93). -/
theorem hasEvent_iff (s : State) : s.hasEvent = true ↔ s.pins.rst = false ∧ s.pins.inValid = true := by
  simp [State.hasEvent, Pins.carriesEvent]

/-- The operation of an event, by the field columns of R93. -/
theorem decode_word_of_event {s : State} {i : Instr} (hev : s.hasEvent = true)
    (h : opByFields false true s.trip s.state.code.toNat s.posClass.toNat s.octet = some i) :
    decode s.word = .ok i := by
  obtain ⟨hrst, hvalid⟩ := (hasEvent_iff s).mp hev
  rw [State.word, hrst, hvalid]
  exact decode_of_opByFields h

/-- In `Idle` no event trips (R92). -/
theorem trip_idle {s : State} (hs : s.state = .idle) : s.trip = false := by
  simp [State.trip, hs]

/-- H_TIMEOUT as an operation (R155): the index it clears is cleared by finalize again. -/
theorem exec_hTimeout_eq (s : State) :
    exec .hTimeout s = .next (finalize (some .timeout) s.ts (takeTime s)) := rfl

/-- D_TIMEOUT as an operation (R170): the index it clears is cleared by finalize again. -/
theorem exec_dTimeout_eq (s : State) :
    exec .dTimeout s = .next (finalize (some .timeout) s.ts (takeTime s)) := rfl

/-- A step on an event that trips is finalize(Timeout, ts), in whichever state it finds the machine (R139). -/
theorem step_of_trip {s : State} (hev : s.hasEvent = true) (ht : s.trip = true) :
    step s = .next (endCycle (finalize (some .timeout) s.ts (takeTime s))) := by
  cases hs : s.state with
  | idle => simp [trip_idle hs] at ht
  | preamble =>
    exact step_of_exec (decode_word_of_event hev (by simp [opByFields, hs, ht, RxState.code])) (exec_pTimeout_eq s)
  | header =>
    exact step_of_exec (decode_word_of_event hev (by simp [opByFields, hs, ht, RxState.code])) (exec_hTimeout_eq s)
  | data =>
    exact step_of_exec (decode_word_of_event hev (by simp [opByFields, hs, ht, RxState.code])) (exec_dTimeout_eq s)

/-- Whether a cycle carries an event does not depend on the octet it carries. -/
theorem hasEvent_inOctet (s : State) (p : Pins) (rest : List Pins) (b : Byte) :
    State.hasEvent { s with inputs := { p with inOctet := b } :: rest } =
      State.hasEvent { s with inputs := p :: rest } := rfl

/-- Whether an event trips does not depend on its octet (R135). -/
theorem trip_inOctet (s : State) (p : Pins) (rest : List Pins) (b : Byte) :
    State.trip { s with inputs := { p with inOctet := b } :: rest } =
      State.trip { s with inputs := p :: rest } := rfl

/-- Settles O37: neither the trip bit nor what finalize(Timeout, ts) leaves depends on the octet. -/
theorem lateOctetIsIgnored : Obligations.LateOctetIsIgnored := by
  intro s p rest b hin hev ht
  obtain ⟨u, rfl⟩ : ∃ u : State, s = { u with inputs := p :: rest } := ⟨s, by rw [← hin]⟩
  have hother := step_of_trip ((hasEvent_inOctet u p rest b).trans hev) ((trip_inOctet u p rest b).trans ht)
  have hstep := step_of_trip hev ht
  exact ⟨hother.trans hstep.symm, _, _, hstep, rfl, rfl, rfl⟩

end Sys2Proof.Machine
end

section
/-! PROOFS. Which endings are reported (R150): the table's rows as equations of `State.ending`, and for each
receive state the operations that its events select. -/

namespace Sys2Proof.Machine

/-! ### What a state reports -/

/-- `t` reports `e`: a record of that shape and error, or none at all. -/
def Reports (e : Option (Kind × Option FrameError)) (t : State) : Prop :=
  match e with
  | none => NoRecord t
  | some (k, err) => ∃ r, t.returned = .record r ∧ r.kind = k ∧ r.error = err

/-- The end of a cycle keeps what is reported. -/
theorem endCycle_reports {e : Option (Kind × Option FrameError)} {t : State} (h : Reports e t) :
    Reports e (endCycle t) := h

/-- finalize reports its error, in the shape that the error and the length call for (R180, R183). -/
theorem finalize_reports {k : Kind} {err : Option FrameError} (ts : Time) {u : State}
    (hk : kindOf err u.frame.length = k) : Reports (some (k, err)) (finalize err ts u) :=
  ⟨_, rfl, hk, rfl⟩

/-! ### The rows of R150 -/

section Rows
variable {s : State}

theorem ending_of_no_event (hev : s.hasEvent = false) : s.ending = none := if_pos hev

theorem ending_of_trip (hev : s.hasEvent = true) (ht : s.trip = true) :
    s.ending = some (.malformed, some .timeout) := by
  simp [State.ending, show s.pins.carriesEvent = true from hev, ht]

theorem ending_of_resting (ht : s.trip = false) (hs : s.state = .idle ∨ s.state = .preamble) :
    s.ending = none := by
  rcases hs with hs | hs <;> simp [State.ending, ht, hs]

theorem ending_of_header_field (ht : s.trip = false) (hs : s.state = .header) (hp : s.hdrIdx ≠ 5#3) :
    s.ending = none := by
  simp [State.ending, ht, hs, hp]

theorem ending_of_header_crc (hev : s.hasEvent = true) (ht : s.trip = false) (hs : s.state = .header)
    (hp : s.hdrIdx = 5#3) :
    s.ending =
      if crc8 s.octet s.frame.headerCrcRunning ≠ 0x55#8 then some (.malformed, some .badHeaderCrc)
      else if s.frame.length = 0#16 then some (.plain, none)
      else none := by
  simp [State.ending, show s.pins.carriesEvent = true from hev, ht, hs, hp]

theorem ending_of_data_octet (ht : s.trip = false) (hs : s.state = .data)
    (hp : s.dataIdx.toNat ≠ s.frame.length.toNat + 1) : s.ending = none := by
  simp [State.ending, ht, hs, hp]

theorem ending_of_data_crc (hev : s.hasEvent = true) (ht : s.trip = false) (hs : s.state = .data)
    (hp : s.dataIdx.toNat = s.frame.length.toNat + 1) :
    s.ending =
      if crc16 s.octet s.frame.dataCrcRunning = 0xF0B8#16 then some (.data, none)
      else some (.malformed, some .badDataCrc) := by
  simp [State.ending, show s.pins.carriesEvent = true from hev, ht, hs, hp]

end Rows

/-! ### The operations against the rows -/

/-- The header check passes at the sentinel (R161). -/
theorem headerGood_iff (c : Byte) : headerGood c = true ↔ c = 0x55#8 := by
  simp [headerGood, Config.hcrcGood]

/-- The data check passes at the sentinel (R173). -/
theorem dataGood_iff (c : Half) : dataGood c = true ↔ c = 0xF0B8#16 := by
  simp [dataGood, Config.dcrcGood]

/-- An operation that makes no record answers the silent rows. -/
theorem reports_of_silent {s u v : State} (hend : s.ending = none)
    (hexec : (.next v : Result) = .next u) (hv : NoRecord v) : Reports s.ending u := by
  obtain rfl := Host.Outcome.next.inj hexec
  rw [hend]
  exact hv

/-- The timeout operations answer the row of the trip. -/
theorem reports_of_trip {s u : State} (hev : s.hasEvent = true) (ht : s.trip = true)
    (hexec : (.next (finalize (some .timeout) s.ts (takeTime s)) : Result) = .next u) : Reports s.ending u := by
  obtain rfl := Host.Outcome.next.inj hexec
  rw [ending_of_trip hev ht]
  exact finalize_reports s.ts rfl

/-- H_CRC answers the three rows of the header check. -/
theorem hCrc_reports {s u : State} (hev : s.hasEvent = true) (ht : s.trip = false) (hs : s.state = .header)
    (hp : s.hdrIdx = 5#3) (hexec : exec (.hCrc s.octet) s = .next u) : Reports s.ending u := by
  rw [ending_of_header_crc hev ht hs hp]
  rcases execHCrc_cases s.octet s with ⟨hbad, he⟩ | ⟨hgood, hlen, he⟩ | ⟨hgood, hlen, he⟩ <;>
    obtain rfl := Host.Outcome.next.inj (he.symm.trans hexec)
  · have hne : crc8 s.octet s.frame.headerCrcRunning ≠ 0x55#8 := by simp [← headerGood_iff, hbad]
    rw [if_pos hne]
    exact finalize_reports s.ts rfl
  · rw [if_neg (not_not.mpr ((headerGood_iff _).mp hgood)), if_pos hlen]
    exact finalize_reports s.ts (if_pos hlen)
  · rw [if_neg (not_not.mpr ((headerGood_iff _).mp hgood)), if_neg hlen]
    exact ⟨rfl, rfl⟩

/-- D_CRC2 answers the two rows of the data check; a `Data` frame has a payload, so its shape is not plain. -/
theorem dCrc2_reports {s u : State} (hev : s.hasEvent = true) (ht : s.trip = false) (hs : s.state = .data)
    (hp : s.dataIdx.toNat = s.frame.length.toNat + 1) (hlen : s.frame.length ≠ 0#16)
    (hexec : exec (.dCrc2 s.octet) s = .next u) : Reports s.ending u := by
  rw [ending_of_data_crc hev ht hs hp]
  rcases execDCrc2_cases s.octet s with ⟨hgood, he⟩ | ⟨hbad, he⟩ <;>
    obtain rfl := Host.Outcome.next.inj (he.symm.trans hexec)
  · rw [if_pos ((dataGood_iff _).mp hgood)]
    exact finalize_reports s.ts (if_neg hlen)
  · have hne : crc16 s.octet s.frame.dataCrcRunning ≠ 0xF0B8#16 := by simp [← dataGood_iff, hbad]
    rw [if_neg hne]
    exact finalize_reports s.ts rfl

/-- The operations of `Preamble` answer the rows of R150. -/
theorem preamble_reports {s u : State} {i : Instr} (hev : s.hasEvent = true) (hs : s.state = .preamble)
    (hc : PreambleChoice s i) (hexec : exec i s = .next u) : Reports s.ending u := by
  rcases hc with ⟨ht, rfl⟩ | ⟨ht, _, rfl⟩ | ⟨ht, _, rfl⟩ | ⟨ht, _, _, rfl⟩
  case inl => exact reports_of_trip hev ht hexec
  all_goals exact reports_of_silent (ending_of_resting ht (.inr hs)) hexec ⟨rfl, rfl⟩

/-- The operations of `Header` answer the rows of R150. -/
theorem header_reports {s u : State} {i : Instr} (hev : s.hasEvent = true) (hs : s.state = .header)
    (hc : HeaderChoice s i) (hexec : exec i s = .next u) : Reports s.ending u := by
  rcases hc with ⟨ht, rfl⟩ | ⟨ht, hp, rfl⟩ | ⟨ht, hp, rfl⟩ | ⟨ht, hp, rfl⟩ | ⟨ht, hp, rfl⟩ | ⟨ht, hp, rfl⟩ |
    ⟨ht, hp, rfl⟩
  · exact reports_of_trip hev ht hexec
  iterate 5
    · exact reports_of_silent (ending_of_header_field ht hs (by simp [hp])) hexec ⟨rfl, rfl⟩
  · exact hCrc_reports hev ht hs hp hexec

/-- The operations of `Data` answer the rows of R150, where the frame has a payload (R38 (e)). -/
theorem data_reports {s u : State} {i : Instr} (hev : s.hasEvent = true) (hs : s.state = .data)
    (hlen : s.frame.length ≠ 0#16) (hc : DataChoice s i) (hexec : exec i s = .next u) : Reports s.ending u := by
  rcases hc with ⟨ht, rfl⟩ | ⟨ht, hp, rfl⟩ | ⟨ht, hp, rfl⟩ | ⟨ht, hp, rfl⟩
  · exact reports_of_trip hev ht hexec
  · obtain ⟨_, rfl⟩ := execDPayload_next hexec
    rw [ending_of_data_octet ht hs (by omega)]
    exact ⟨rfl, rfl⟩
  · exact reports_of_silent (ending_of_data_octet ht hs (by omega)) hexec ⟨rfl, rfl⟩
  · exact dCrc2_reports hev ht hs hp hlen hexec

/-- In `Data` a good state has a payload to take (R38 (e)). -/
theorem Inv.length_ne_zero {s : State} (hinv : Inv s) (hs : s.state = .data) : s.frame.length ≠ 0#16 := by
  intro hzero
  have hpos := (hinv.inData hs).lengthPositive
  simp [hzero] at hpos

/-- Whatever the cycle selects in a good state, it reports what R150 lists. -/
theorem exec_reports {s u : State} {i : Instr} (hinv : Inv s) (hc : CycleChoice s i)
    (hexec : exec i s = .next u) : Reports s.ending u := by
  rcases hc with ⟨hr, rfl⟩ | ⟨hr, hv, rfl⟩ | ⟨_, _, hs, _, rfl⟩ | ⟨_, _, hs, _, rfl⟩ | ⟨hr, hv, hs, hc⟩ |
    ⟨hr, hv, hs, hc⟩ | ⟨hr, hv, hs, hc⟩
  · exact reports_of_silent (ending_of_no_event (by simp [State.hasEvent, Pins.carriesEvent, hr])) hexec ⟨rfl, rfl⟩
  · exact reports_of_silent (ending_of_no_event (by simp [State.hasEvent, Pins.carriesEvent, hv])) hexec ⟨rfl, rfl⟩
  · exact reports_of_silent (ending_of_resting (trip_idle hs) (.inl hs)) hexec ⟨rfl, rfl⟩
  · exact reports_of_silent (ending_of_resting (trip_idle hs) (.inl hs)) hexec ⟨rfl, rfl⟩
  · exact preamble_reports ((hasEvent_iff s).mpr ⟨hr, hv⟩) hs hc hexec
  · exact header_reports ((hasEvent_iff s).mpr ⟨hr, hv⟩) hs hc hexec
  · exact data_reports ((hasEvent_iff s).mpr ⟨hr, hv⟩) hs (hinv.length_ne_zero hs) hc hexec

/-- Settles O46: the step runs what the cycle selects, and the end of the cycle keeps what is reported. -/
theorem endingsAreReported : Obligations.EndingsAreReported := by
  intro s t hinv hstep
  obtain ⟨i, u, hdec, hexec, rfl⟩ := step_next hstep
  exact endCycle_reports (exec_reports hinv (decode_word_cases hdec) hexec)

end Sys2Proof.Machine
end

section
/-! PROOFS. The operations of `Header`: what the five field octets share, the length made of two octets, and the
exits of the header check. -/

namespace Sys2Proof.Machine

/-! ### H_TIMEOUT -/

/-- The low octet of a length as a number. -/
theorem low_octet_toNat (length : Half) : (length.extractLsb' 0 8).toNat = length.toNat % 256 := by
  simp [BitVec.extractLsb'_toNat]

/-- The record of a timeout in `Header` holds the fields whose octets have come, and no later one (R163, R192). -/
theorem presenceRow_hTimeout {s u : State} (ts : Time) (hu : u.frame = s.frame)
    (hshape : HeaderShape s.frame s.hdrIdx.toNat) :
    PresenceRow s .hTimeout (finalRecord (some .timeout) ts u) := by
  obtain ⟨hcrc, hcrcValid⟩ := hshape.crcUnseen
  obtain ⟨hcount, -, hmsb, hlsb⟩ := hshape.dataUnseen
  have hlow : s.hdrIdx.toNat = 4 → s.frame.length.toNat % 256 = 0 := fun h4 => by
    rw [← low_octet_toNat, hshape.lengthHigh h4]
    rfl
  have hbytes : u.payloadBytes s.frame.payloadCount.toNat = [] := by rw [hcount]; rfl
  simpa [PresenceRow, hu, hcrc, hcrcValid, hmsb, hlsb, hbytes, kindOf, joinDataCrc] using
    ⟨hshape.typeSeen, hshape.dstSeen, hshape.srcSeen, hshape.lengthUnset, hlow⟩

/-- Settles O10: H_TIMEOUT is finalize(Timeout, ts), and the shape of a good `Header` frame is that of its
record. -/
theorem hTimeoutCompletes : Obligations.HTimeoutCompletes := by
  refine ⟨fun s => ?_, fun pos octet => decode_of_opByFields (by simp [opByFields])⟩
  exact ⟨_, exec_hTimeout_eq s, finalizedAs_finalize (u := takeTime s) _ _ rfl rfl rfl, rfl, fun hinv hs =>
    ⟨_, rfl, presenceRow_hTimeout s.ts rfl (hinv.inHeader hs), rfl⟩⟩

/-! ### The five field octets (R156 to R160) -/

/-- A header octet stored in the frame `f` changes, of the registers, those that `f` changes, the accumulator, the
position and the two that every event without a record writes. -/
theorem headerStep_keepsRegsBut (rs : List Reg) (octet : Byte) (next : BitVec 3) {f : Frame} {s : State}
    (hf : ∀ r ∈ frameRegs, r ∉ rs → State.readReg { s with frame := f } r = s.readReg r) :
    KeepsRegsBut (rs ++ [.headerCrcRunning, .hdrIdx, .lastTime, .outValid]) s
      (returnNone (headerStep octet next f s)) := by
  refine keepsRegsBut_of_groups (by simp [sequencingRegs, State.readReg]) (fun r hmem hr => ?_) rfl
  obtain ⟨hrs, hown⟩ := not_or.mp (mt List.mem_append.mpr hr)
  refine Eq.trans ?_ (hf r hmem hrs)
  cases r <;> simp [frameRegs] at hmem hown <;> rfl

section FieldOctets
variable (octet : Byte) (s : State)

/-- H_TYPE as an operation (R156). -/
theorem exec_hType_eq : exec (.hType octet) s =
    .next (returnNone (headerStep octet 1#3 { s.frame with frameType := some octet } s)) := rfl

/-- H_DST as an operation (R157). -/
theorem exec_hDst_eq : exec (.hDst octet) s =
    .next (returnNone (headerStep octet 2#3 { s.frame with dstAddr := some octet } s)) := rfl

/-- H_SRC as an operation (R158). -/
theorem exec_hSrc_eq : exec (.hSrc octet) s =
    .next (returnNone (headerStep octet 3#3 { s.frame with srcAddr := some octet } s)) := rfl

/-- H_LENHI as an operation (R159). -/
theorem exec_hLenhi_eq : exec (.hLenhi octet) s =
    .next (returnNone (headerStep octet 4#3 { s.frame with length := lengthHigh octet } s)) := rfl

/-- H_LENLO as an operation (R160). -/
theorem exec_hLenlo_eq : exec (.hLenlo octet) s =
    .next (returnNone (headerStep octet 5#3 { s.frame with length := lengthLow s.frame.length octet } s)) := rfl

end FieldOctets

/-- Settles O11: the three operations are one header step each, with the octet stored in its own register. -/
theorem headerFieldOctetsComplete : Obligations.HeaderFieldOctetsComplete := by
  refine ⟨fun octet s => ?_, fun octet s => ?_, fun octet s => ?_, fun octet =>
    ⟨decode_of_opByFields (by simp [opByFields]), decode_of_opByFields (by simp [opByFields]),
      decode_of_opByFields (by simp [opByFields])⟩⟩
  · exact ⟨_, exec_hType_eq octet s, rfl, rfl, rfl, rfl, ⟨rfl, rfl⟩,
      headerStep_keepsRegsBut [.frameTypeV, .frameType] octet 1#3 (by simp [frameRegs, State.readReg]),
      fun _ => rfl, rfl, rfl⟩
  · exact ⟨_, exec_hDst_eq octet s, rfl, rfl, rfl, rfl, ⟨rfl, rfl⟩,
      headerStep_keepsRegsBut [.dstAddrV, .dstAddr] octet 2#3 (by simp [frameRegs, State.readReg]),
      fun _ => rfl, rfl, rfl⟩
  · exact ⟨_, exec_hSrc_eq octet s, rfl, rfl, rfl, rfl, ⟨rfl, rfl⟩,
      headerStep_keepsRegsBut [.srcAddrV, .srcAddr] octet 3#3 (by simp [frameRegs, State.readReg]),
      fun _ => rfl, rfl, rfl⟩

/-! ### The length -/

/-- The high octet of the length, with the low octet 0 (R159). -/
theorem lengthHigh_toNat (octet : Byte) : (lengthHigh octet).toNat = octet.toNat * 256 :=
  (toNat_append_eq_add octet 0#8).trans (by simp)

/-- The low octet is added, where the sum has 16 bits (R160). -/
theorem lengthLow_toNat {length : Half} {octet : Byte} (h : length.toNat + octet.toNat < 65536) :
    (lengthLow length octet).toNat = length.toNat + octet.toNat := by
  simp [lengthLow, Nat.mod_eq_of_lt h]

/-- Above a low octet that is 0 there is room for any octet, so the sum makes no carry (R160). -/
theorem length_add_octet_lt {length : Half} (octet : Byte) (h : length.toNat % 256 = 0) :
    length.toNat + octet.toNat < 65536 := by
  have hlength := length.isLt
  have hoctet := octet.isLt
  omega

/-- The two octets make the length, high octet first (R86). -/
theorem lengthLow_lengthHigh_toNat (hi lo : Byte) :
    (lengthLow (lengthHigh hi) lo).toNat = hi.toNat * 256 + lo.toNat := by
  have hlow : (lengthHigh hi).toNat % 256 = 0 := by rw [lengthHigh_toNat, Nat.mul_mod_left]
  rw [lengthLow_toNat (length_add_octet_lt lo hlow), lengthHigh_toNat]

/-- Settles O12: `length` is overwritten. -/
theorem hLenhiCompletes : Obligations.HLenhiCompletes := by
  refine ⟨fun octet s => ?_, fun octet => decode_of_opByFields (by simp [opByFields])⟩
  exact ⟨_, exec_hLenhi_eq octet s, lengthHigh_toNat octet, rfl, rfl, rfl, ⟨rfl, rfl⟩,
    headerStep_keepsRegsBut [.length] octet 4#3 (by simp [frameRegs, State.readReg]),
      fun _ => rfl, rfl, rfl⟩

/-- Settles O13: where the low octet of `length` is 0, the sum has no carry and leaves the high octet alone. -/
theorem hLenloCompletes : Obligations.HLenloCompletes := by
  refine ⟨fun octet s => ?_, fun hi lo s => ?_, fun octet => decode_of_opByFields (by simp [opByFields])⟩
  · refine ⟨_, exec_hLenlo_eq octet s, lengthLow_toNat, fun hlow => ?_, rfl, rfl, rfl, ⟨rfl, rfl⟩,
      headerStep_keepsRegsBut [.length] octet 5#3 (by simp [frameRegs, State.readReg]),
      fun _ => rfl, rfl, rfl⟩
    have hsum := lengthLow_toNat (length_add_octet_lt octet hlow)
    have hoctet := octet.isLt
    simp only [returnNone_frame, headerStep_frame, hsum]
    omega
  · exact ⟨_, _, exec_hLenhi_eq hi s, exec_hLenlo_eq lo _, lengthLow_lengthHigh_toNat hi lo⟩

/-! ### H_CRC -/

/-- Of the entries of the table, the sentinel is entry 0xFF alone (R112). -/
theorem crc8RomRead_eq_sentinel_iff (a : Byte) : crc8RomRead a = 0x55#8 ↔ a = 0xFF#8 := by
  have hlast : crc8RomRead 0xFF#8 = 0x55#8 := by decide
  rw [← hlast]
  exact crc8RomRead_injective.eq_iff

/-- Two octets differ in every bit exactly where one is the complement of the other. -/
theorem xor_eq_allOnes_iff (c b : Byte) : c ^^^ b = 0xFF#8 ↔ b = ~~~ c := by
  have hnot : c ^^^ ~~~ c = 0xFF#8 := by
    rw [← BitVec.not_xor_right, BitVec.xor_self]
    rfl
  rw [← hnot, BitVec.xor_right_inj]

/-- The one octet that passes the header check is the complement of the accumulator (R161). -/
theorem crc8_eq_sentinel_iff (octet crcIn : Byte) : crc8 octet crcIn = 0x55#8 ↔ octet = ~~~ crcIn :=
  (crc8RomRead_eq_sentinel_iff (crcIn ^^^ octet)).trans (xor_eq_allOnes_iff crcIn octet)

/-- The header check, as the bit that H_CRC writes (R161). -/
theorem headerGood_eq_decide (c : Byte) : headerGood c = decide (c = 0x55#8) :=
  Bool.eq_iff_iff.mpr ((headerGood_iff c).trans decide_eq_true_iff.symm)

/-- H_CRC is its three writes, then one of its exits (R161). -/
theorem exec_hCrc_eq (octet : Byte) (s : State) : exec (.hCrc octet) s = execHCrc octet s := rfl

/-- The frame with the three writes of H_CRC (R161). -/
theorem headerCheckStep_frame_eq (octet : Byte) (s : State) :
    (headerCheckStep octet s).frame =
      { s.frame with
        headerCrcReceived := some octet
        headerCrcRunning := crc8 octet s.frame.headerCrcRunning
        headerCrcValid := some (decide (crc8 octet s.frame.headerCrcRunning = 0x55#8)) } := by
  rw [← headerGood_eq_decide]
  rfl

/-- The registers that the passage to `Data` leaves alone (R161). -/
theorem enterData_headerCheckStep_keepsRegsBut (octet : Byte) (s : State) :
    KeepsRegsBut [.state, .hdrIdx, .dataIdx, .lastTime, .headerCrcRunning, .headerCrcReceivedV,
      .headerCrcReceived, .headerCrcValidV, .headerCrcValid, .dataCrcRunning, .outValid] s
      (returnNone (enterData (headerCheckStep octet s))) := by
  intro r hr
  cases r <;> simp at hr <;> rfl

/-- Settles O14: the exit is chosen by the check first and by `length` second. -/
theorem hCrcCompletes : Obligations.HCrcCompletes := by
  refine ⟨fun octet s => ?_, fun octet => decode_of_opByFields (by simp [opByFields])⟩
  have hpass := crc8_eq_sentinel_iff octet s.frame.headerCrcRunning
  have hfinal (err : Option FrameError) :=
    finalizedAs_finalize (s := s) (u := headerCheckStep octet s) err s.ts rfl rfl rfl
  simp only [headerCheckStep_frame_eq] at hfinal
  rw [exec_hCrc_eq]
  rcases execHCrc_cases octet s with ⟨hbad, he⟩ | ⟨hgood, hlen, he⟩ | ⟨hgood, hlen, he⟩
  · have hne : crc8 octet s.frame.headerCrcRunning ≠ 0x55#8 := by simp [← headerGood_iff, hbad]
    exact ⟨_, he, rfl, hpass, fun _ => hfinal _, fun h => absurd h hne, fun h => absurd h hne⟩
  · have heq := (headerGood_iff _).mp hgood
    exact ⟨_, he, rfl, hpass, fun h => absurd heq h, fun _ _ => hfinal _, fun _ h => absurd hlen h⟩
  · have heq := (headerGood_iff _).mp hgood
    exact ⟨_, he, rfl, hpass, fun h => absurd heq h, fun _ h => absurd h hlen, fun _ _ =>
      ⟨rfl, rfl, rfl, rfl, rfl, heq, congrArg some hgood, ⟨rfl, rfl⟩,
        enterData_headerCheckStep_keepsRegsBut octet s, fun _ => rfl, rfl, rfl⟩⟩

end Sys2Proof.Machine
end

section
/-! PROOFS. The operations of `Data`: what selects each of them, what the octets of `Data` share, the payload with
one octet appended, and the record of a timeout. -/

namespace Sys2Proof.Machine

/-! ### D_TIMEOUT -/

/-- The record of a timeout in `Data` has the complete header, the payload received so far, and the first CRC octet
only where it has come (R170, R192). -/
theorem presenceRow_dTimeout {s u : State} (ts : Time) (hu : u.frame = s.frame)
    (hshape : DataShape s.frame s.dataIdx.toNat) :
    PresenceRow s .dTimeout (finalRecord (some .timeout) ts u) := by
  obtain ⟨htype, hdst, hsrc⟩ := hshape.addressed
  obtain ⟨hcrc, hcrcValid⟩ := hshape.crcSeen
  have hmsb : s.frame.dataCrcMsb.isSome = decide (s.dataIdx.toNat = s.frame.length.toNat + 1) := hshape.msbSeen
  simp [PresenceRow, hu, htype, hdst, hsrc, hcrc, hcrcValid, hshape.countFollows, hmsb, hshape.lsbUnseen, kindOf,
    joinDataCrc]

/-- Settles O15: D_TIMEOUT is finalize(Timeout, ts), and the shape of a good `Data` frame is that of its record. -/
theorem dTimeoutCompletes : Obligations.DTimeoutCompletes := by
  refine ⟨fun s => ?_, fun pos octet => decode_of_opByFields (by simp [opByFields])⟩
  exact ⟨_, exec_dTimeout_eq s, finalizedAs_finalize (u := takeTime s) _ _ rfl rfl rfl, rfl, fun hinv hs =>
    ⟨_, rfl, presenceRow_dTimeout s.ts rfl (hinv.inData hs), rfl⟩⟩

/-! ### What an event in `Data` selects -/

/-- An event in `Data` decodes to what the trip bit and the place of `data_idx` against `length` choose (R91, R93),
and to nothing else. -/
theorem decode_word_data_iff {s : State} {i : Instr} (hs : s.state = .data) (hev : s.hasEvent = true) :
    decode s.word = .ok i ↔ DataChoice s i := by
  constructor
  · intro h
    obtain ⟨hrst, hvalid⟩ := (hasEvent_iff s).mp hev
    simpa [CycleChoice, hrst, hvalid, hs] using decode_word_cases h
  · rintro (⟨ht, rfl⟩ | ⟨ht, hp, rfl⟩ | ⟨ht, hp, rfl⟩ | ⟨ht, hp, rfl⟩)
    · exact decode_word_of_event hev (by simp [opByFields, hs, ht, RxState.code])
    · exact decode_word_of_event hev
        (by simp [opByFields, hs, ht, RxState.code, posClass_of_data hs, dataClass_of_lt hp])
    · exact decode_word_of_event hev
        (by simp [opByFields, hs, ht, RxState.code, posClass_of_data hs, dataClass_of_eq hp])
    · exact decode_word_of_event hev
        (by simp [opByFields, hs, ht, RxState.code, posClass_of_data hs, dataClass_of_eq_succ hp])

/-! ### What the octets of `Data` share (R171, R172) -/

/-- An octet of `Data` accounted for in the frame `f` changes, of the registers, those that `f` changes, the
accumulator, the position and the two that every event without a record writes. -/
theorem dataStep_keepsRegsBut (rs : List Reg) (octet : Byte) (idx : Idx17) {f : Frame} {s : State}
    (hf : ∀ r ∈ frameRegs, r ∉ rs → State.readReg { s with frame := f } r = s.readReg r) :
    KeepsRegsBut (rs ++ [.dataCrcRunning, .dataIdx, .lastTime, .outValid]) s
      (returnNone (dataStep octet idx f s)) := by
  refine keepsRegsBut_of_groups (by simp [sequencingRegs, State.readReg]) (fun r hmem hr => ?_) rfl
  obtain ⟨hrs, hown⟩ := not_or.mp (mt List.mem_append.mpr hr)
  refine Eq.trans ?_ (hf r hmem hrs)
  cases r <;> simp [frameRegs] at hmem hown <;> rfl

/-- A register that has room for one more counts on without a carry. -/
theorem toNat_add_one_of_lt {w : Nat} {x : BitVec w} (h : x.toNat + 1 < 2 ^ w) :
    (x + 1#w).toNat = x.toNat + 1 := by
  have hone : (1#w).toNat = 1 := Nat.mod_eq_of_lt (by omega)
  rw [BitVec.toNat_add_of_lt (by rwa [hone]), hone]

/-- The 17 bits of `data_idx` hold every position up to one above the longest `length` (R24). -/
theorem dataIdx_add_one_toNat {idx : Idx17} {length : Half} (h : idx.toNat ≤ length.toNat) :
    (idx + 1#17).toNat = idx.toNat + 1 :=
  toNat_add_one_of_lt (by omega)

/-! ### D_PAYLOAD -/

/-- A cell of the store is no register. -/
theorem readReg_payload (s : State) (m : Memory) (r : Reg) : State.readReg { s with payload := m } r = s.readReg r := by
  cases r <;> rfl

/-- Below `length` the position is the index of a cell, at most 65534 (R60, R63). -/
theorem payloadIndex_of_lt {idx : Idx17} {length : Half} (h : idx.toNat < length.toNat) :
    payloadIndex idx = idx.toNat ∧ idx.toNat < Config.payloadMax := by
  simp only [payloadIndex, BitVec.toNat_setWidth, Config.payloadMax]
  omega

/-- D_PAYLOAD as an operation, below `length`: no fault is possible (R171). -/
theorem exec_dPayload_eq (octet : Byte) {s : State} (h : s.dataIdx.toNat < s.frame.length.toNat) :
    exec (.dPayload octet) s = .next
      { returnNone (dataStep octet (s.dataIdx + 1#17)
          { s.frame with payloadCount := s.frame.payloadCount + 1#16 } s) with
        payload := Memory.write s.payload s.dataIdx.toNat octet } := by
  obtain ⟨hidx, hinside⟩ := payloadIndex_of_lt h
  change execDPayload octet s = _
  rw [execDPayload, hidx, storePayload, if_pos hinside]
  rfl

/-- The payload count has room below a `length` of its own width (R32). -/
theorem payloadCount_add_one_toNat {count length : Half} (h : count.toNat < length.toNat) :
    (count + 1#16).toNat = count.toNat + 1 :=
  toNat_add_one_of_lt (by omega)

/-- The octets of the first cells depend on what those cells read as alone. -/
theorem payloadBytes_congr {s t : State} {n : Nat} (h : ∀ a < n, t.cell a = s.cell a) :
    t.payloadBytes n = s.payloadBytes n :=
  List.map_congr_left fun a ha => h a (List.mem_range.mp ha)

/-- A write of the cell next above the payload appends its octet to the payload (R171). -/
theorem payloadBytes_write {s t : State} {n : Nat} {octet : Byte}
    (hpayload : t.payload = Memory.write s.payload n octet) (hcycle : t.cycle = s.cycle) :
    t.payloadBytes (n + 1) = s.payloadBytes n ++ [octet] := by
  have hbelow (a : Nat) (ha : a < n) : t.cell a = s.cell a := by
    simp [State.cell, hpayload, hcycle, Memory.read_write_other _ _ (Nat.ne_of_lt ha)]
  have hlast : t.cell n = octet := cell_of_read (by simp [hpayload])
  rw [payloadBytes_succ, payloadBytes_congr hbelow, hlast]

/-- Settles O16: the octet goes to the cell next above the payload, and the registers are those of one data step. -/
theorem dPayloadCompletes : Obligations.DPayloadCompletes := by
  refine ⟨fun octet s hlt hcount => ?_, fun s hs hev ht => ?_, fun octet =>
    decode_of_opByFields (by simp [opByFields])⟩
  · have hcountNext := payloadCount_add_one_toNat (hcount.trans_lt hlt)
    refine ⟨_, exec_dPayload_eq octet hlt, Memory.read_write_same _ _ _,
      fun a ha => Memory.read_write_other _ _ ha, ?_, hcountNext, rfl, dataIdx_add_one_toNat hlt.le, rfl,
      ⟨rfl, rfl⟩, fun r hr => (readReg_payload _ _ r).trans
        (dataStep_keepsRegsBut [.payloadCount] octet _ (by simp [frameRegs, State.readReg]) r hr), rfl, rfl⟩
    simp only [returnNone_frame, dataStep_frame, hcountNext, hcount]
    exact payloadBytes_write rfl rfl
  · simp [decode_word_data_iff hs hev, DataChoice, ht]

/-! ### D_CRC1 -/

/-- D_CRC1 as an operation (R172). -/
theorem exec_dCrc1_eq (octet : Byte) (s : State) : exec (.dCrc1 octet) s =
    .next (returnNone (dataStep octet (s.dataIdx + 1#17) { s.frame with dataCrcMsb := some octet } s)) := rfl

/-- Settles O18: D_CRC1 is one data step with the octet stored beside the payload. -/
theorem dCrc1Completes : Obligations.DCrc1Completes := by
  refine ⟨fun octet s => ?_, fun s hs hev ht => ?_, fun octet => decode_of_opByFields (by simp [opByFields])⟩
  · exact ⟨_, exec_dCrc1_eq octet s, rfl, rfl, fun heq => (dataIdx_add_one_toNat heq.le).trans (congrArg (· + 1) heq),
      rfl, ⟨rfl, rfl⟩, dataStep_keepsRegsBut [.dataCrcMsbV, .dataCrcMsb] octet _ (by simp [frameRegs, State.readReg]),
      fun _ => rfl, rfl, rfl⟩
  · simp [decode_word_data_iff hs hev, DataChoice, ht]

end Sys2Proof.Machine
end

section
/-! PROOFS. The two sub-functions that end a frame, run as operations of their own: emit, which makes the record and
writes no register, and finalize, which makes it of the stamped frame and resets (spec/46_finalize_emit.md). -/

namespace Sys2Proof.Machine

/-! ### finalize -/

/-- finalize as an operation (R180). -/
theorem exec_finalize_eq (err : Option FrameError) (ts : Time) (s : State) :
    exec (.finalize err ts) s = .next (finalize err ts s) := rfl

/-- Settles O24: as an operation finalize is called in the state itself, so `last_time` is kept too. -/
theorem finalizeCompletes : Obligations.FinalizeCompletes := by
  refine ⟨fun err ts s => ?_, fun w err ts hw => ?_⟩
  · exact ⟨_, exec_finalize_eq err ts s, finalizedAs_finalize err ts rfl rfl rfl, finalize_lastTime s err ts⟩
  · simpa [Instr.dispatched] using decode_dispatched hw

/-! ### emit -/

/-- emit answers with the record of every frame whose verdict is present (R182, R183). -/
theorem emit_of_valid {v : Bool} {s : State} (hv : s.frame.valid = some v) :
    emit s = some (recordOf v s.frame (s.payloadBytes s.frame.payloadCount.toNat)) := by
  rw [emit, hv, Option.map_some]

/-- emit as an operation, where it answers with a record (R183). -/
theorem exec_emit_eq {s : State} {r : Record} (h : emit s = some r) :
    exec .emit s = .next (returnValue (.record r) s) := by
  change execEmit s = _
  rw [execEmit, h]

/-- Settles O25: the record is that of the frame and its payload cells, and it is only returned. -/
theorem emitCompletes : Obligations.EmitCompletes := by
  refine ⟨fun v s hv => ?_, fun w hw => ?_⟩
  · exact ⟨_, _, _, exec_emit_eq (emit_of_valid hv), returnValue_returned s _, cellsAre_payloadBytes s _,
      recordMaps_recordOf v s.frame _, returnValue_keepsRegs _ s, fun _ => rfl, rfl, rfl⟩
  · simpa [Instr.dispatched] using decode_dispatched hw

end Sys2Proof.Machine
end

section
/-! PROOFS. The two cycle-level operations and the cycle after a record (spec/70_reset_and_hazards.md): RESET puts
every register at its reset column, HOLD lowers `out_valid` alone, and the record outlasts one more cycle. -/

namespace Sys2Proof.Machine

/-! ### RESET -/

/-- The payload cells and the model's bookkeeping of cycles are no registers. -/
theorem readReg_cells_and_pins (s : State) (m : Memory) (pins : List Pins) (n : Nat) (r : Reg) :
    State.readReg { s with payload := m, inputs := pins, cycle := n } r = s.readReg r := by
  cases r <;> rfl

/-- Settles O1: RESET leaves the reset state but for the cells, the pins to come and the count of cycles, which a
second RESET finds as the first left them. -/
theorem resetCompletes : Obligations.ResetCompletes := by
  refine ⟨fun s => ?_, fun inValid trip st pos octet => decode_of_opByFields (by simp [opByFields])⟩
  exact ⟨_, exec_reset_eq s, fun r => (readReg_cells_and_pins _ _ _ _ r).trans (readReg_reset r), fun _ => rfl,
    ⟨rfl, rfl⟩, rfl, exec_reset_eq _⟩

/-! ### HOLD -/

/-- HOLD as an operation (R232). -/
theorem exec_hold_eq (s : State) : exec .hold s = .next (returnNone s) := rfl

/-- To return without a record writes `out_valid` and no other register (R43). -/
theorem returnNone_keepsRegsBut (s : State) : KeepsRegsBut [.outValid] s (returnNone s) :=
  keepsRegsBut_of_groups (by simp [sequencingRegs, State.readReg])
    (fun _ h _ => readReg_congr_frame (returnNone_frame s) h) (returnNone_out s)

/-- Settles O3: HOLD is a return without a record. -/
theorem holdCompletes : Obligations.HoldCompletes := by
  refine ⟨fun s => ?_, fun trip st pos octet => decode_of_opByFields (by simp [opByFields])⟩
  exact ⟨_, exec_hold_eq s, ⟨rfl, rfl⟩, returnNone_keepsRegsBut s, fun _ => rfl, rfl, rfl⟩

/-! ### The cycle after a record (R240) -/

/-- In `Idle` a cycle without `rst` selects HOLD, I_START or I_NOISE (R93). -/
theorem decode_word_idle {s : State} {i : Instr} (hs : s.state = .idle) (hrst : s.pins.rst = false)
    (h : decode s.word = .ok i) : i = .hold ∨ i = .iStart ∨ i = .iNoise s.octet := by
  rcases decode_word_cases h with ⟨hr, _⟩ | ⟨_, _, hi⟩ | ⟨_, _, _, _, hi⟩ | ⟨_, _, _, _, hi⟩ | ⟨_, _, hp, _⟩ |
    ⟨_, _, hp, _⟩ | ⟨_, _, hp, _⟩
  · simp [hrst] at hr
  · exact .inl hi
  · exact .inr (.inl hi)
  · exact .inr (.inr hi)
  all_goals simp [hs] at hp

/-- A step from `Idle` without `rst` makes no record and leaves `out_*` alone (R43, R232, R142). -/
theorem step_idle_silent {s t : State} (hs : s.state = .idle) (hrst : s.pins.rst = false) (h : step s = .next t) :
    NoRecord t ∧ t.out = s.out := by
  obtain ⟨i, u, hdec, hexec, rfl⟩ := step_next h
  rcases decode_word_idle hs hrst hdec with rfl | rfl | rfl <;>
    obtain rfl := Host.Outcome.next.inj hexec <;>
    exact ⟨⟨rfl, rfl⟩, rfl⟩

/-- What `out_*` show depends on `out` alone (R42). -/
theorem outShows_congr_out {s t : State} {r : Record} (hout : t.out = s.out) (h : OutShows s r) : OutShows t r := by
  simpa [OutShows, State.readReg, hout] using h

/-- A step that returns a record latches it and leaves the machine in `Idle` (R180, R211). -/
theorem step_record_latched {s t : State} {r : Record} (h : step s = .next t) (hr : t.returned = .record r) :
    t.state = .idle ∧ OutShows t r := by
  obtain ⟨err, ts, v, rfl, _⟩ := step_record h hr
  obtain rfl : finalRecord err ts v = r := Returned.record.inj hr
  exact ⟨rfl, outShows_congr_out rfl (finalize_outShows err ts v)⟩

/-- Settles O45: a record is made on the way to `Idle`, and the next cycle there, if no RESET, is silent and keeps
`out_*`. -/
theorem recordPortsAreStable : Obligations.RecordPortsAreStable := by
  intro s t u r hstep hret hnext hrst
  obtain ⟨hidle, hshows⟩ := step_record_latched hstep hret
  obtain ⟨⟨hvalid, _⟩, hout⟩ := step_idle_silent hidle hrst hnext
  exact ⟨outShows_congr_out hout hshows, hvalid⟩

end Sys2Proof.Machine
end

section
/-! PROOFS. What one cycle does, said once: for each row of the operation map (R93) the condition under which the
cycle selects it and the state it leaves, before the end of the cycle. Every statement about a step takes its
cases from here. -/

namespace Sys2Proof.Machine

/-! ### The rows of the operation map, with what each leaves -/

/-- The header field octets (R156 to R160): at which position an octet is which operation, and the frame with the
octet stored. -/
inductive FieldOctet (octet : Byte) (f : Frame) : BitVec 3 → Instr → Frame → Prop where
  | type : FieldOctet octet f 0#3 (.hType octet) { f with frameType := some octet }
  | dst : FieldOctet octet f 1#3 (.hDst octet) { f with dstAddr := some octet }
  | src : FieldOctet octet f 2#3 (.hSrc octet) { f with srcAddr := some octet }
  | lenhi : FieldOctet octet f 3#3 (.hLenhi octet) { f with length := lengthHigh octet }
  | lenlo : FieldOctet octet f 4#3 (.hLenlo octet) { f with length := lengthLow f.length octet }

/-- The operation of an event that trips (R143, R155, R170). -/
inductive TimeoutOf : RxState → Instr → Prop where
  | preamble : TimeoutOf .preamble .pTimeout
  | header : TimeoutOf .header .hTimeout
  | data : TimeoutOf .data .dTimeout

/-- P_SYNC (R144): the frame waits for its header. -/
def enterHeader (s : State) : State :=
  { takeTime s with
    state := .header
    hdrIdx := 0#3
    frame := { s.frame with headerCrcRunning := Config.hcrcSeed } }

/-- D_PAYLOAD below `length` (R171): the octet is stored in the cell at `data_idx`. -/
def payloadTaken (octet : Byte) (s : State) : State :=
  { dataStep octet (s.dataIdx + 1#17) { s.frame with payloadCount := s.frame.payloadCount + 1#16 } s with
    payload := Memory.write s.payload s.dataIdx.toNat octet }

/-- D_CRC1 (R172): the first trailing octet. -/
def msbTaken (octet : Byte) (s : State) : State :=
  dataStep octet (s.dataIdx + 1#17) { s.frame with dataCrcMsb := some octet } s

/-- D_CRC2 before its check (R173): the second trailing octet. -/
def lsbTaken (octet : Byte) (s : State) : State :=
  dataStep octet 0#17 { s.frame with dataCrcLsb := some octet } s

/-- `Runs s i u`: the current cycle of `s` selects the operation `i`, which leaves `u`. -/
inductive Runs (s : State) : Instr → State → Prop where
  | reset : s.pins.rst = true →
      Runs s .reset { State.reset with payload := s.payload, inputs := s.inputs, cycle := s.cycle }
  | hold : s.pins.rst = false → s.pins.inValid = false → Runs s .hold (returnNone s)
  | start : s.hasEvent = true → s.state = .idle → s.octet = 0x55#8 →
      Runs s .iStart { idleEvent s with state := .preamble }
  | noise : s.hasEvent = true → s.state = .idle → s.octet ≠ 0x55#8 → Runs s (.iNoise s.octet) (idleEvent s)
  | timeout {i : Instr} : s.hasEvent = true → s.trip = true → TimeoutOf s.state i →
      Runs s i (finalize (some .timeout) s.ts (takeTime s))
  | sync : s.hasEvent = true → s.trip = false → s.state = .preamble → s.octet = 0xFF#8 →
      Runs s .pSync (returnNone (enterHeader s))
  | again : s.hasEvent = true → s.trip = false → s.state = .preamble → s.octet = 0x55#8 →
      Runs s .pRepeat (returnNone (takeTime s))
  | abandon : s.hasEvent = true → s.trip = false → s.state = .preamble → s.octet ≠ 0xFF#8 → s.octet ≠ 0x55#8 →
      Runs s (.pAbandon s.octet) (returnNone { frameReset (takeTime s) with state := .idle })
  | field {i : Instr} {f : Frame} : s.hasEvent = true → s.trip = false → s.state = .header →
      FieldOctet s.octet s.frame s.hdrIdx i f →
      Runs s i (returnNone (headerStep s.octet (s.hdrIdx + 1#3) f s))
  | headerBad : s.hasEvent = true → s.trip = false → s.state = .header → s.hdrIdx = 5#3 →
      headerGood (crc8 s.octet s.frame.headerCrcRunning) = false →
      Runs s (.hCrc s.octet) (finalize (some .badHeaderCrc) s.ts (headerCheckStep s.octet s))
  | headerPlain : s.hasEvent = true → s.trip = false → s.state = .header → s.hdrIdx = 5#3 →
      headerGood (crc8 s.octet s.frame.headerCrcRunning) = true → s.frame.length = 0#16 →
      Runs s (.hCrc s.octet) (finalize none s.ts (headerCheckStep s.octet s))
  | headerData : s.hasEvent = true → s.trip = false → s.state = .header → s.hdrIdx = 5#3 →
      headerGood (crc8 s.octet s.frame.headerCrcRunning) = true → s.frame.length ≠ 0#16 →
      Runs s (.hCrc s.octet) (returnNone (enterData (headerCheckStep s.octet s)))
  | payload : s.hasEvent = true → s.trip = false → s.state = .data →
      s.dataIdx.toNat < s.frame.length.toNat → Runs s (.dPayload s.octet) (returnNone (payloadTaken s.octet s))
  | msb : s.hasEvent = true → s.trip = false → s.state = .data → s.dataIdx.toNat = s.frame.length.toNat →
      Runs s (.dCrc1 s.octet) (returnNone (msbTaken s.octet s))
  | dataGood : s.hasEvent = true → s.trip = false → s.state = .data →
      s.dataIdx.toNat = s.frame.length.toNat + 1 → dataGood (crc16 s.octet s.frame.dataCrcRunning) = true →
      Runs s (.dCrc2 s.octet) (finalize none s.ts (lsbTaken s.octet s))
  | dataBad : s.hasEvent = true → s.trip = false → s.state = .data →
      s.dataIdx.toNat = s.frame.length.toNat + 1 → dataGood (crc16 s.octet s.frame.dataCrcRunning) = false →
      Runs s (.dCrc2 s.octet) (finalize (some .badDataCrc) s.ts (lsbTaken s.octet s))

/-! ### The rows against the decoder and the operations -/

/-- H_CRC in its place leaves one of its three exits. -/
theorem runs_of_hCrc {s u : State} (hev : s.hasEvent = true) (ht : s.trip = false) (hs : s.state = .header)
    (hp : s.hdrIdx = 5#3) (h : exec (.hCrc s.octet) s = .next u) : Runs s (.hCrc s.octet) u := by
  rcases execHCrc_cases s.octet s with ⟨hg, he⟩ | ⟨hg, hl, he⟩ | ⟨hg, hl, he⟩ <;>
    obtain rfl := Host.Outcome.next.inj (he.symm.trans h)
  · exact .headerBad hev ht hs hp hg
  · exact .headerPlain hev ht hs hp hg hl
  · exact .headerData hev ht hs hp hg hl

/-- D_CRC2 in its place leaves one of its two exits. -/
theorem runs_of_dCrc2 {s u : State} (hev : s.hasEvent = true) (ht : s.trip = false) (hs : s.state = .data)
    (hp : s.dataIdx.toNat = s.frame.length.toNat + 1) (h : exec (.dCrc2 s.octet) s = .next u) :
    Runs s (.dCrc2 s.octet) u := by
  rcases execDCrc2_cases s.octet s with ⟨hg, he⟩ | ⟨hg, he⟩ <;>
    obtain rfl := Host.Outcome.next.inj (he.symm.trans h)
  · exact .dataGood hev ht hs hp hg
  · exact .dataBad hev ht hs hp hg

/-- An event in `Preamble` runs one of its four rows. -/
theorem runs_of_preambleChoice {s u : State} {i : Instr} (hev : s.hasEvent = true) (hs : s.state = .preamble)
    (hc : PreambleChoice s i) (h : exec i s = .next u) : Runs s i u := by
  rcases hc with ⟨ht, rfl⟩ | ⟨ht, ho, rfl⟩ | ⟨ht, ho, rfl⟩ | ⟨ht, hff, h55, rfl⟩ <;>
    obtain rfl := Host.Outcome.next.inj h
  · exact .timeout hev ht (hs ▸ .preamble)
  · exact .sync hev ht hs ho
  · exact .again hev ht hs ho
  · exact .abandon hev ht hs hff h55

/-- A field octet at its own position runs its row. -/
theorem runs_of_field {s u : State} {i : Instr} {k : BitVec 3} {f : Frame} (hev : s.hasEvent = true)
    (ht : s.trip = false) (hs : s.state = .header) (hk : s.hdrIdx = k) (hf : FieldOctet s.octet s.frame k i f)
    (hu : u = returnNone (headerStep s.octet (k + 1#3) f s)) : Runs s i u := by
  subst hk hu
  exact .field hev ht hs hf

/-- An event in `Header` runs one of its seven rows. -/
theorem runs_of_headerChoice {s u : State} {i : Instr} (hev : s.hasEvent = true) (hs : s.state = .header)
    (hc : HeaderChoice s i) (h : exec i s = .next u) : Runs s i u := by
  rcases hc with ⟨ht, rfl⟩ | ⟨ht, hp, rfl⟩ | ⟨ht, hp, rfl⟩ | ⟨ht, hp, rfl⟩ | ⟨ht, hp, rfl⟩ | ⟨ht, hp, rfl⟩ |
    ⟨ht, hp, rfl⟩
  · obtain rfl := Host.Outcome.next.inj h
    exact .timeout hev ht (hs ▸ .header)
  · exact runs_of_field hev ht hs hp .type (Host.Outcome.next.inj h).symm
  · exact runs_of_field hev ht hs hp .dst (Host.Outcome.next.inj h).symm
  · exact runs_of_field hev ht hs hp .src (Host.Outcome.next.inj h).symm
  · exact runs_of_field hev ht hs hp .lenhi (Host.Outcome.next.inj h).symm
  · exact runs_of_field hev ht hs hp .lenlo (Host.Outcome.next.inj h).symm
  · exact runs_of_hCrc hev ht hs hp h

/-- An event in `Data` runs one of its four rows. -/
theorem runs_of_dataChoice {s u : State} {i : Instr} (hev : s.hasEvent = true) (hs : s.state = .data)
    (hc : DataChoice s i) (h : exec i s = .next u) : Runs s i u := by
  rcases hc with ⟨ht, rfl⟩ | ⟨ht, hp, rfl⟩ | ⟨ht, hp, rfl⟩ | ⟨ht, hp, rfl⟩
  · obtain rfl := Host.Outcome.next.inj h
    exact .timeout hev ht (hs ▸ .data)
  · obtain rfl := Host.Outcome.next.inj ((exec_dPayload_eq s.octet hp).symm.trans h)
    exact .payload hev ht hs hp
  · obtain rfl := Host.Outcome.next.inj h
    exact .msb hev ht hs hp
  · exact runs_of_dCrc2 hev ht hs hp h

/-- What a cycle decodes and runs is one of the rows. -/
theorem runs_of_exec {s u : State} {i : Instr} (hdec : decode s.word = .ok i) (h : exec i s = .next u) :
    Runs s i u := by
  rcases decode_word_cases hdec with ⟨hr, rfl⟩ | ⟨hr, hv, rfl⟩ | ⟨hr, hv, hs, ho, rfl⟩ | ⟨hr, hv, hs, ho, rfl⟩ |
    ⟨hr, hv, hs, hc⟩ | ⟨hr, hv, hs, hc⟩ | ⟨hr, hv, hs, hc⟩
  · obtain rfl := Host.Outcome.next.inj h
    exact .reset hr
  · obtain rfl := Host.Outcome.next.inj h
    exact .hold hr hv
  · obtain rfl := Host.Outcome.next.inj h
    exact .start ((hasEvent_iff s).mpr ⟨hr, hv⟩) hs ho
  · obtain rfl := Host.Outcome.next.inj h
    exact .noise ((hasEvent_iff s).mpr ⟨hr, hv⟩) hs ho
  · exact runs_of_preambleChoice ((hasEvent_iff s).mpr ⟨hr, hv⟩) hs hc h
  · exact runs_of_headerChoice ((hasEvent_iff s).mpr ⟨hr, hv⟩) hs hc h
  · exact runs_of_dataChoice ((hasEvent_iff s).mpr ⟨hr, hv⟩) hs hc h

/-- A step that answers ran one of the rows and ended the cycle. -/
theorem runs_of_step {s t : State} (h : step s = .next t) : ∃ i u, Runs s i u ∧ t = endCycle u := by
  obtain ⟨i, u, hdec, hexec, rfl⟩ := step_next h
  exact ⟨i, u, runs_of_exec hdec hexec, rfl⟩

/-- A cycle with `rst` selects RESET. -/
theorem decode_word_reset {s : State} (hr : s.pins.rst = true) : decode s.word = .ok .reset := by
  rw [State.word, hr]
  exact decode_of_opByFields rfl

/-- A quiet cycle selects HOLD. -/
theorem decode_word_hold {s : State} (hr : s.pins.rst = false) (hv : s.pins.inValid = false) :
    decode s.word = .ok .hold := by
  rw [State.word, hr, hv]
  exact decode_of_opByFields rfl

/-- An event in `Header` decodes to a field octet at the field's position. -/
theorem decode_word_field {s : State} {i : Instr} {f : Frame} (hev : s.hasEvent = true) (ht : s.trip = false)
    (hs : s.state = .header) (hf : FieldOctet s.octet s.frame s.hdrIdx i f) : decode s.word = .ok i := by
  refine decode_word_of_event hev ?_
  generalize hk : s.hdrIdx = k at hf
  cases hf <;> simp [opByFields, hs, ht, RxState.code, posClass_of_header hs, hk]

/-- A field octet is one header step with its octet stored (R156 to R160). -/
theorem exec_field {octet : Byte} {s : State} {i : Instr} {k : BitVec 3} {f : Frame}
    (hf : FieldOctet octet s.frame k i f) :
    exec i s = .next (returnNone (headerStep octet (k + 1#3) f s)) := by
  cases hf <;> rfl

/-- A row is what the cycle decodes. -/
theorem Runs.decode {s u : State} {i : Instr} (h : Runs s i u) : decode s.word = .ok i := by
  cases h with
  | reset hr => exact decode_word_reset hr
  | hold hr hv => exact decode_word_hold hr hv
  | start hev hs ho | noise hev hs ho =>
    exact decode_word_of_event hev (by simp [opByFields, hs, ho, RxState.code])
  | timeout hev ht hi =>
    generalize hs : s.state = st at hi
    cases hi <;> exact decode_word_of_event hev (by simp [opByFields, hs, ht, RxState.code])
  | sync hev ht hs ho | again hev ht hs ho =>
    exact decode_word_of_event hev (by simp [opByFields, hs, ht, ho, RxState.code])
  | abandon hev ht hs hff h55 =>
    exact decode_word_of_event hev (by simp [opByFields, hs, ht, hff, h55, RxState.code])
  | field hev ht hs hf => exact decode_word_field hev ht hs hf
  | headerBad hev ht hs hp | headerPlain hev ht hs hp | headerData hev ht hs hp =>
    exact decode_word_of_event hev (by simp [opByFields, hs, ht, hp, RxState.code, posClass_of_header hs])
  | payload hev ht hs hp =>
    exact (decode_word_data_iff hs hev).mpr (.inr (.inl ⟨ht, hp, rfl⟩))
  | msb hev ht hs hp =>
    exact (decode_word_data_iff hs hev).mpr (.inr (.inr (.inl ⟨ht, hp, rfl⟩)))
  | dataGood hev ht hs hp | dataBad hev ht hs hp =>
    exact (decode_word_data_iff hs hev).mpr (.inr (.inr (.inr ⟨ht, hp, rfl⟩)))

/-- A row is what its operation does. -/
theorem Runs.exec {s u : State} {i : Instr} (h : Runs s i u) : exec i s = .next u := by
  cases h with
  | reset | hold | start | noise | sync | again | abandon | msb => rfl
  | timeout _ _ hi =>
    generalize s.state = st at hi
    cases hi <;> rfl
  | field _ _ _ hf => exact exec_field hf
  | headerBad _ _ _ _ hg => simp [Machine.exec, execHCrc, hg, raiseError]
  | headerPlain _ _ _ _ hg hl => simp [Machine.exec, execHCrc, hg, hl]
  | headerData _ _ _ _ hg hl => simp [Machine.exec, execHCrc, hg, hl]
  | payload _ _ _ hp => exact exec_dPayload_eq s.octet hp
  | dataGood _ _ _ _ hg => simp [Machine.exec, execDCrc2, hg, lsbTaken]
  | dataBad _ _ _ _ hg => simp [Machine.exec, execDCrc2, hg, lsbTaken, raiseError]

/-- A row is a step, with the end of the cycle. -/
theorem Runs.step {s u : State} {i : Instr} (h : Runs s i u) : step s = .next (endCycle u) :=
  step_of_exec h.decode h.exec

end Sys2Proof.Machine
end

section
/-! PROOFS. The invariant of the machine between events: how a good state is made in each receive state, what each
field octet and each octet of `Data` does to the shape of the frame, and that every step keeps it. -/

namespace Sys2Proof.Machine

/-! ### How a good state is made -/

/-- A frame that finalize has not yet judged (R35, R38 (c)). -/
def Undecided (f : Frame) : Prop :=
  f.valid = none ∧ f.error = none ∧ f.endTime = 0#64

/-- In `Idle` and `Preamble` the frame holds its `start_time` alone. -/
theorem inv_of_resting {s : State} {start : Time} (hstore : Memory.wf s.payload = true)
    (hs : s.state = .idle ∨ s.state = .preamble) (hh : s.hdrIdx = 0#3) (hd : s.dataIdx = 0#17)
    (hf : s.frame = { frameResetValue with startTime := start }) : Inv s where
  store := hstore
  hdrIdle _ := hh
  dataIdle _ := hd
  undecided := by rw [hf]; exact ⟨rfl, rfl, rfl⟩
  resting _ := by rw [hf]
  inHeader h := by simp [h] at hs
  inData h := by simp [h] at hs
  written a h := by rw [hf] at h; exact absurd h (Nat.not_lt_zero a)

/-- In `Header` no cell is of the payload yet. -/
theorem inv_of_header {s : State} (hstore : Memory.wf s.payload = true) (hs : s.state = .header)
    (hd : s.dataIdx = 0#17) (hu : Undecided s.frame) (hshape : HeaderShape s.frame s.hdrIdx.toNat) : Inv s where
  store := hstore
  hdrIdle h := absurd hs h
  dataIdle _ := hd
  undecided := hu
  resting h := by simp [hs] at h
  inHeader _ := hshape
  inData h := by simp [hs] at h
  written a h := by rw [hshape.dataUnseen.1] at h; exact absurd h (Nat.not_lt_zero a)

/-- In `Data` the cells of the payload have been written. -/
theorem inv_of_data {s : State} (hstore : Memory.wf s.payload = true) (hs : s.state = .data)
    (hh : s.hdrIdx = 0#3) (hu : Undecided s.frame) (hshape : DataShape s.frame s.dataIdx.toNat)
    (hw : ∀ a, a < s.frame.payloadCount.toNat → (Memory.read s.payload a).isSome) : Inv s where
  store := hstore
  hdrIdle _ := hh
  dataIdle h := absurd hs h
  undecided := hu
  resting h := by simp [hs] at h
  inHeader h := by simp [hs] at h
  inData _ := hshape
  written := hw

/-- The invariant speaks of the sequencing registers, the frame and the cells only. -/
theorem Inv.congr {s t : State} (h : Inv s) (hst : t.state = s.state) (hh : t.hdrIdx = s.hdrIdx)
    (hd : t.dataIdx = s.dataIdx) (hf : t.frame = s.frame) (hp : t.payload = s.payload) : Inv t where
  store := hp ▸ h.store
  hdrIdle := by rw [hst, hh]; exact h.hdrIdle
  dataIdle := by rw [hst, hd]; exact h.dataIdle
  undecided := hf ▸ h.undecided
  resting := by rw [hst, hf]; exact h.resting
  inHeader := by rw [hst, hf, hh]; exact h.inHeader
  inData := by rw [hst, hf, hd]; exact h.inData
  written := by rw [hf, hp]; exact h.written

/-- The end of a cycle keeps a good state good. -/
theorem Inv.endCycle {s : State} (h : Inv s) : Inv (endCycle s) := h.congr rfl rfl rfl rfl rfl

/-- To return without a record keeps a good state good. -/
theorem Inv.returnNone {s : State} (h : Inv s) : Inv (returnNone s) := h.congr rfl rfl rfl rfl rfl

/-- Whatever it is called on, finalize leaves a good state, if the store is well formed (R180, R211). -/
theorem inv_finalize {s : State} (err : Option FrameError) (ts : Time) (hstore : Memory.wf s.payload = true) :
    Inv (finalize err ts s) :=
  inv_of_resting (start := 0#64) hstore (.inl rfl) rfl rfl rfl

/-- In `Idle` the machine holds no position and no octet of a frame (R23, R24, R38 (f)). -/
theorem Inv.idle_positions {s : State} (h : Inv s) (hs : s.state = .idle ∨ s.state = .preamble) :
    s.hdrIdx = 0#3 ∧ s.dataIdx = 0#17 := by
  refine ⟨h.hdrIdle ?_, h.dataIdle ?_⟩ <;> rcases hs with hs | hs <;> simp [hs]

/-! ### The shape of a frame in `Header` -/

/-- The frame that waits for its header has the shape of position 0 (R144). -/
theorem headerShape_start {f : Frame} {start : Time} (hf : f = { frameResetValue with startTime := start }) :
    HeaderShape { f with headerCrcRunning := Config.hcrcSeed } 0 := by
  subst hf
  exact ⟨by decide, rfl, rfl, rfl, fun _ => rfl, fun h => absurd h (by decide), ⟨rfl, rfl⟩, ⟨rfl, rfl, rfl, rfl⟩⟩

/-- A field octet takes the shape from its position to the next (R156 to R160). -/
theorem headerShape_field {octet crc : Byte} {f g : Frame} {k : BitVec 3} {i : Instr}
    (hf : FieldOctet octet f k i g) (h : HeaderShape f k.toNat) :
    HeaderShape { g with headerCrcRunning := crc } (k + 1#3).toNat := by
  have htype := h.typeSeen
  have hdst := h.dstSeen
  have hsrc := h.srcSeen
  have hlen := h.lengthUnset
  cases hf with
  | type => exact ⟨by decide, rfl, hdst, hsrc, fun _ => hlen (by decide), nofun, h.crcUnseen, h.dataUnseen⟩
  | dst => exact ⟨by decide, htype, rfl, hsrc, fun _ => hlen (by decide), nofun, h.crcUnseen, h.dataUnseen⟩
  | src => exact ⟨by decide, htype, hdst, rfl, fun _ => hlen (by decide), nofun, h.crcUnseen, h.dataUnseen⟩
  | lenhi =>
    refine ⟨by decide, htype, hdst, hsrc, nofun, fun _ => ?_, h.crcUnseen, h.dataUnseen⟩
    exact BitVec.eq_of_toNat_eq (by rw [low_octet_toNat, lengthHigh_toNat, Nat.mul_mod_left]; rfl)
  | lenlo => exact ⟨by decide, htype, hdst, hsrc, nofun, nofun, h.crcUnseen, h.dataUnseen⟩

/-- A field octet leaves the verdict alone. -/
theorem undecided_field {octet crc : Byte} {f g : Frame} {k : BitVec 3} {i : Instr}
    (hf : FieldOctet octet f k i g) (h : Undecided f) : Undecided { g with headerCrcRunning := crc } := by
  cases hf <;> exact h

/-! ### The shape of a frame in `Data` -/

/-- A header that passes its check, with a payload to come, has the shape of position 0 of `Data` (R161). -/
theorem dataShape_enter {s : State} (hs : HeaderShape s.frame 5)
    (hg : headerGood (crc8 s.octet s.frame.headerCrcRunning) = true) (hl : s.frame.length ≠ 0#16) :
    DataShape (enterData (headerCheckStep s.octet s)).frame 0 := by
  have hpos : 1 ≤ s.frame.length.toNat :=
    Nat.one_le_iff_ne_zero.mpr fun h => hl (BitVec.eq_of_toNat_eq h)
  obtain ⟨hcount, -, hmsb, hlsb⟩ := hs.dataUnseen
  refine ⟨Nat.zero_le _, hpos, ⟨hs.typeSeen, hs.dstSeen, hs.srcSeen⟩, ⟨rfl, congrArg some hg⟩, ?_, ?_, hlsb⟩
  · exact (congrArg BitVec.toNat hcount).trans (Nat.zero_min _).symm
  · change presence s.frame.dataCrcMsb = decide (0 = s.frame.length.toNat + 1)
    simp [hmsb, presence]

/-- A payload octet takes the shape to the next position (R171). -/
theorem dataShape_payload {octet : Byte} {s : State} (h : DataShape s.frame s.dataIdx.toNat)
    (hp : s.dataIdx.toNat < s.frame.length.toNat) :
    DataShape (payloadTaken octet s).frame (payloadTaken octet s).dataIdx.toNat := by
  have hidx : (payloadTaken octet s).dataIdx.toNat = s.dataIdx.toNat + 1 := dataIdx_add_one_toNat hp.le
  have hcount : s.frame.payloadCount.toNat = s.dataIdx.toNat := by rw [h.countFollows]; omega
  have hnext := payloadCount_add_one_toNat (hcount.trans_lt hp)
  rw [hidx]
  refine ⟨?_, h.lengthPositive, h.addressed, h.crcSeen, ?_, ?_, h.lsbUnseen⟩
  · change s.dataIdx.toNat + 1 ≤ s.frame.length.toNat + 1
    omega
  · change (s.frame.payloadCount + 1#16).toNat = min (s.dataIdx.toNat + 1) s.frame.length.toNat
    omega
  · change presence s.frame.dataCrcMsb = decide (s.dataIdx.toNat + 1 = s.frame.length.toNat + 1)
    rw [h.msbSeen, decide_eq_decide]
    omega

/-- The first trailing octet takes the shape to its last position (R172). -/
theorem dataShape_msb {octet : Byte} {s : State} (h : DataShape s.frame s.dataIdx.toNat)
    (hp : s.dataIdx.toNat = s.frame.length.toNat) :
    DataShape (msbTaken octet s).frame (msbTaken octet s).dataIdx.toNat := by
  have hidx : (msbTaken octet s).dataIdx.toNat = s.frame.length.toNat + 1 :=
    (dataIdx_add_one_toNat hp.le).trans (congrArg (· + 1) hp)
  have hcount := h.countFollows
  rw [hidx]
  refine ⟨le_rfl, h.lengthPositive, h.addressed, h.crcSeen, ?_, (decide_eq_true rfl).symm, h.lsbUnseen⟩
  change s.frame.payloadCount.toNat = min (s.frame.length.toNat + 1) s.frame.length.toNat
  omega

/-- Below `length` the position is the payload count, which is the next free cell (R32). -/
theorem Inv.count_eq_dataIdx {s : State} (h : Inv s) (hs : s.state = .data)
    (hp : s.dataIdx.toNat < s.frame.length.toNat) : s.frame.payloadCount.toNat = s.dataIdx.toNat := by
  rw [(h.inData hs).countFollows]
  omega

/-- A payload octet is written to the cell that joins the payload (R171). -/
theorem written_payload {octet : Byte} {s : State} (h : Inv s) (hs : s.state = .data)
    (hp : s.dataIdx.toNat < s.frame.length.toNat) {a : Nat}
    (ha : a < (payloadTaken octet s).frame.payloadCount.toNat) :
    (Memory.read (payloadTaken octet s).payload a).isSome := by
  have hcount := h.count_eq_dataIdx hs hp
  have hnext : (payloadTaken octet s).frame.payloadCount.toNat = s.frame.payloadCount.toNat + 1 :=
    payloadCount_add_one_toNat (hcount.trans_lt hp)
  change (Memory.read (Memory.write s.payload s.dataIdx.toNat octet) a).isSome
  by_cases hcell : a = s.dataIdx.toNat
  · rw [hcell, Memory.read_write_same]
    rfl
  · rw [Memory.read_write_other _ _ hcell]
    exact h.written a (by omega)

/-! ### Every row keeps the invariant -/

/-- Whatever row the cycle of a good state runs, it leaves a good state. -/
theorem Runs.inv {s u : State} {i : Instr} (h : Runs s i u) (hinv : Inv s) : Inv u := by
  have hstore := hinv.store
  cases h with
  | reset => exact inv_of_resting (start := 0#64) hstore (.inl rfl) rfl rfl rfl
  | hold => exact hinv.returnNone
  | start _ hs =>
    obtain ⟨hh, hd⟩ := hinv.idle_positions (.inl hs)
    exact inv_of_resting (start := s.ts) hstore (.inr rfl) hh hd rfl
  | noise _ hs =>
    obtain ⟨hh, hd⟩ := hinv.idle_positions (.inl hs)
    exact inv_of_resting (start := s.ts) hstore (.inl hs) hh hd rfl
  | timeout => exact inv_finalize _ _ hstore
  | sync _ _ hs =>
    obtain ⟨-, hd⟩ := hinv.idle_positions (.inr hs)
    exact (inv_of_header (s := enterHeader s) hstore rfl hd hinv.undecided
      (headerShape_start (hinv.resting (.inr hs)))).returnNone
  | again => exact hinv.congr rfl rfl rfl rfl rfl
  | abandon _ _ hs =>
    obtain ⟨hh, hd⟩ := hinv.idle_positions (.inr hs)
    exact inv_of_resting (start := 0#64) hstore (.inl rfl) hh hd rfl
  | @field _ f _ _ hs hf =>
    exact (inv_of_header (s := headerStep s.octet (s.hdrIdx + 1#3) f s) hstore hs
      (hinv.dataIdle (by simp [hs])) (undecided_field hf hinv.undecided)
      (headerShape_field hf (hinv.inHeader hs))).returnNone
  | headerBad | headerPlain => exact inv_finalize _ _ hstore
  | headerData _ _ hs hp hg hl =>
    have hshape : HeaderShape s.frame 5 := by simpa [hp] using hinv.inHeader hs
    refine (inv_of_data (s := enterData (headerCheckStep s.octet s)) hstore rfl rfl hinv.undecided
      (dataShape_enter hshape hg hl) fun a ha => hinv.written a ha).returnNone
  | payload _ _ hs hp =>
    obtain ⟨-, hinside⟩ := payloadIndex_of_lt hp
    exact (inv_of_data (s := payloadTaken s.octet s) (Memory.wf_write _ _ _ hstore hinside) hs
      (hinv.hdrIdle (by simp [hs])) hinv.undecided (dataShape_payload (hinv.inData hs) hp)
      fun a ha => written_payload hinv hs hp ha).returnNone
  | msb _ _ hs hp =>
    exact (inv_of_data (s := msbTaken s.octet s) hstore hs (hinv.hdrIdle (by simp [hs])) hinv.undecided
      (dataShape_msb (hinv.inData hs) hp) hinv.written).returnNone
  | dataGood | dataBad => exact inv_finalize _ _ hstore

/-- A step from a good state leaves a good state. -/
theorem step_inv {s t : State} (hinv : Inv s) (h : step s = .next t) : Inv t := by
  obtain ⟨i, u, hrun, rfl⟩ := runs_of_step h
  exact (hrun.inv hinv).endCycle

/-- Settles O39: every row of the operation map keeps the invariant, and so does the end of the cycle. -/
theorem invariantIsKept : Obligations.InvariantIsKept := fun _ _ => step_inv

end Sys2Proof.Machine
end

section
/-! PROOFS. The accumulators: a field octet makes the header so far one octet longer, an octet of `Data` the data so
far, so that with each step the running CRC stays that of the octets stored (R111, R121). -/

namespace Sys2Proof.Machine

/-! ### How the accumulators are kept in each receive state -/

/-- In `Idle` and `Preamble` no accumulator is bound. -/
theorem crcInv_of_resting {s : State} (hs : s.state = .idle ∨ s.state = .preamble) : CrcInv s where
  inHeader h := by simp [h] at hs
  inData h := by simp [h] at hs

theorem crcInv_of_header {s : State} (hs : s.state = .header)
    (hcrc : s.frame.headerCrcRunning = crc8Fold (s.frame.headerSoFar s.hdrIdx.toNat) Config.hcrcSeed) :
    CrcInv s where
  inHeader _ := hcrc
  inData h := by simp [hs] at h

theorem crcInv_of_data {s : State} (hs : s.state = .data)
    (hhdr : crc8Fold (s.frame.headerSoFar 5 ++ s.frame.headerCrcReceived.toList) Config.hcrcSeed =
      Config.hcrcGood)
    (hdata : s.frame.dataCrcRunning = crc16Fold s.dataSoFar Config.dcrcSeed) : CrcInv s where
  inHeader h := by simp [hs] at h
  inData _ := ⟨hhdr, hdata⟩

/-! ### The payload read in a later cycle -/

/-- A written cell reads the same whatever the cycle (R64). -/
theorem cell_congr_of_written {s t : State} {a : Nat} (hp : t.payload = s.payload)
    (hw : (Memory.read s.payload a).isSome) : t.cell a = s.cell a := by
  obtain ⟨v, hv⟩ := Option.isSome_iff_exists.mp hw
  rw [cell_of_read hv, cell_of_read (hp ▸ hv)]

/-- The payload of a good state reads the same in every later cycle that leaves the cells and the count alone. -/
theorem Inv.payloadBytes_congr {s t : State} (h : Inv s) (hp : t.payload = s.payload) :
    t.payloadBytes s.frame.payloadCount.toNat = s.payloadBytes s.frame.payloadCount.toNat :=
  Machine.payloadBytes_congr fun a ha => cell_congr_of_written hp (h.written a ha)

/-- The octets of `Data` stored so far depend on the frame and the cells, in a good state not on the cycle. -/
theorem Inv.dataSoFar_congr {s t : State} (h : Inv s) (hp : t.payload = s.payload)
    (hcount : t.frame.payloadCount = s.frame.payloadCount) (hmsb : t.frame.dataCrcMsb = s.frame.dataCrcMsb) :
    t.dataSoFar = s.dataSoFar := by
  rw [State.dataSoFar, State.dataSoFar, hcount, hmsb, h.payloadBytes_congr hp]

/-- The invariant of the accumulators is kept where the position, the frame and the cells are. -/
theorem CrcInv.congr {s t : State} (h : CrcInv s) (hinv : Inv s) (hst : t.state = s.state)
    (hh : t.hdrIdx = s.hdrIdx) (hf : t.frame = s.frame) (hp : t.payload = s.payload) : CrcInv t where
  inHeader := by rw [hst, hf, hh]; exact h.inHeader
  inData := by
    rw [hst, hinv.dataSoFar_congr hp (by rw [hf]) (by rw [hf]), hf]
    exact h.inData

/-! ### The header so far -/

/-- The high octet of the length is the octet of H_LENHI (R159). -/
theorem lengthHigh_high (octet : Byte) : (lengthHigh octet).extractLsb' 8 8 = octet :=
  BitVec.eq_of_toNat_eq (by
    have hoctet := octet.isLt
    rw [BitVec.extractLsb'_toNat, lengthHigh_toNat, Nat.shiftRight_eq_div_pow]
    omega)

/-- H_LENLO keeps the high octet of a length whose low octet is 0, and its octet becomes the low one (R160). -/
theorem lengthLow_octets {length : Half} (octet : Byte) (h : length.extractLsb' 0 8 = 0#8) :
    (lengthLow length octet).extractLsb' 8 8 = length.extractLsb' 8 8 ∧
      (lengthLow length octet).extractLsb' 0 8 = octet := by
  have hlow : length.toNat % 256 = 0 := by rw [← low_octet_toNat, h]; rfl
  have hsum := lengthLow_toNat (length_add_octet_lt octet hlow)
  have hoctet := octet.isLt
  constructor <;> refine BitVec.eq_of_toNat_eq ?_
  · simp only [BitVec.extractLsb'_toNat, hsum, Nat.shiftRight_eq_div_pow]
    omega
  · rw [low_octet_toNat, hsum]
    omega

/-- A field octet is appended to the header so far (R85, R156 to R160). -/
theorem headerSoFar_field {octet crc : Byte} {f g : Frame} {k : BitVec 3} {i : Instr}
    (hf : FieldOctet octet f k i g) (h : HeaderShape f k.toNat) :
    Frame.headerSoFar { g with headerCrcRunning := crc } (k + 1#3).toNat = f.headerSoFar k.toNat ++ [octet] := by
  cases hf with
  | type | dst | src => rfl
  | lenhi =>
    change [f.frameType.getD 0#8, f.dstAddr.getD 0#8, f.srcAddr.getD 0#8, (lengthHigh octet).extractLsb' 8 8] = _
    rw [lengthHigh_high]
    rfl
  | lenlo =>
    obtain ⟨hhigh, hlow⟩ := lengthLow_octets octet (h.lengthHigh rfl)
    change [f.frameType.getD 0#8, f.dstAddr.getD 0#8, f.srcAddr.getD 0#8,
      (lengthLow f.length octet).extractLsb' 8 8, (lengthLow f.length octet).extractLsb' 0 8] = _
    rw [hhigh, hlow]
    rfl

/-- One more octet is folded in last (R111). -/
theorem crc8Fold_snoc (bs : List Byte) (b seed : Byte) :
    crc8Fold (bs ++ [b]) seed = crc8 b (crc8Fold bs seed) := by
  rw [crc8Fold_append, crc8Fold_cons, crc8Fold_nil]

/-- One more octet is folded in last (R121). -/
theorem crc16Fold_snoc (bs : List Byte) (b : Byte) (seed : Half) :
    crc16Fold (bs ++ [b]) seed = crc16 b (crc16Fold bs seed) := by
  rw [crc16Fold_append, crc16Fold_cons, crc16Fold_nil]

/-- At the last position of a header the accumulator is over the five octets before it. -/
theorem CrcInv.header_complete {s : State} (h : CrcInv s) (hs : s.state = .header) (hp : s.hdrIdx = 5#3) :
    s.frame.headerCrcRunning = crc8Fold (s.frame.headerSoFar 5) Config.hcrcSeed := by
  simpa [hp] using h.inHeader hs

/-! ### The data so far -/

/-- At the entry to `Data` no octet of it is stored (R161). -/
theorem dataSoFar_enterData {s : State} (hs : HeaderShape s.frame 5) :
    (enterData (headerCheckStep s.octet s)).dataSoFar = [] := by
  obtain ⟨hcount, -, hmsb, -⟩ := hs.dataUnseen
  change State.payloadBytes _ s.frame.payloadCount.toNat ++ s.frame.dataCrcMsb.toList = []
  rw [hcount, hmsb]
  rfl

/-- Before the first trailing octet the data so far is the payload (R85). -/
theorem DataShape.msb_none {f : Frame} {j : Nat} (h : DataShape f j) (hj : j ≤ f.length.toNat) :
    f.dataCrcMsb = none := by
  have hmsb := h.msbSeen
  rw [decide_eq_false (by omega)] at hmsb
  exact Option.not_isSome_iff_eq_none.mp (by simpa [presence] using hmsb)

/-- A payload octet is appended to the data so far (R171). -/
theorem dataSoFar_payload {octet : Byte} {s : State} (hinv : Inv s) (hs : s.state = .data)
    (hp : s.dataIdx.toNat < s.frame.length.toNat) :
    (payloadTaken octet s).dataSoFar = s.dataSoFar ++ [octet] := by
  have hmsb := (hinv.inData hs).msb_none hp.le
  have hcount := hinv.count_eq_dataIdx hs hp
  have hnext := payloadCount_add_one_toNat (hcount.trans_lt hp)
  have hbytes : (payloadTaken octet s).payloadBytes (s.dataIdx.toNat + 1) =
      s.payloadBytes s.dataIdx.toNat ++ [octet] := payloadBytes_write rfl rfl
  change State.payloadBytes _ (s.frame.payloadCount + 1#16).toNat ++ s.frame.dataCrcMsb.toList =
    s.payloadBytes s.frame.payloadCount.toNat ++ s.frame.dataCrcMsb.toList ++ [octet]
  rw [hmsb, hnext, hcount, hbytes]
  simp

/-- The first trailing octet is appended to the data so far (R172). -/
theorem dataSoFar_msb {octet : Byte} {s : State} (hinv : Inv s) (hs : s.state = .data)
    (hp : s.dataIdx.toNat = s.frame.length.toNat) :
    (msbTaken octet s).dataSoFar = s.dataSoFar ++ [octet] := by
  have hmsb := (hinv.inData hs).msb_none hp.le
  change s.payloadBytes s.frame.payloadCount.toNat ++ [octet] =
    s.payloadBytes s.frame.payloadCount.toNat ++ s.frame.dataCrcMsb.toList ++ [octet]
  rw [hmsb]
  simp

/-! ### Every row keeps the accumulators -/

/-- Whatever row the cycle of a good state runs, the accumulators stay at the CRCs of the octets stored. -/
theorem Runs.crcInv {s u : State} {i : Instr} (h : Runs s i u) (hinv : Inv s) (hcrc : CrcInv s) : CrcInv u := by
  cases h with
  | reset | timeout | headerBad | headerPlain | dataGood | dataBad | abandon =>
    exact crcInv_of_resting (.inl rfl)
  | hold => exact hcrc.congr hinv rfl rfl rfl rfl
  | start => exact crcInv_of_resting (.inr rfl)
  | noise _ hs => exact crcInv_of_resting (.inl hs)
  | sync => exact crcInv_of_header rfl rfl
  | again _ _ hs => exact crcInv_of_resting (.inr hs)
  | @field _ f _ _ hs hf =>
    refine crcInv_of_header hs ?_
    have hfold := hcrc.inHeader hs
    change crc8 s.octet s.frame.headerCrcRunning = crc8Fold (Frame.headerSoFar _ (s.hdrIdx + 1#3).toNat) _
    rw [returnNone_frame, headerStep_frame, headerSoFar_field hf (hinv.inHeader hs), crc8Fold_snoc, hfold]
  | headerData _ _ hs hp hg hl =>
    have hshape : HeaderShape s.frame 5 := by simpa [hp] using hinv.inHeader hs
    refine crcInv_of_data rfl ?_ ?_
    · change crc8Fold (s.frame.headerSoFar 5 ++ [s.octet]) _ = _
      rw [crc8Fold_snoc, ← hcrc.header_complete hs hp]
      exact (headerGood_iff _).mp hg
    · exact (congrArg (crc16Fold · Config.dcrcSeed) (dataSoFar_enterData hshape)).symm
  | payload _ _ hs hp =>
    obtain ⟨hhdr, hdata⟩ := hcrc.inData hs
    refine crcInv_of_data hs hhdr ?_
    change crc16 s.octet s.frame.dataCrcRunning = crc16Fold (payloadTaken s.octet s).dataSoFar _
    rw [dataSoFar_payload hinv hs hp, crc16Fold_snoc, hdata]
  | msb _ _ hs hp =>
    obtain ⟨hhdr, hdata⟩ := hcrc.inData hs
    refine crcInv_of_data hs hhdr ?_
    change crc16 s.octet s.frame.dataCrcRunning = crc16Fold (msbTaken s.octet s).dataSoFar _
    rw [dataSoFar_msb hinv hs hp, crc16Fold_snoc, hdata]

/-- A step from a good state keeps the accumulators; the next cycle reads the same payload, since it is written. -/
theorem step_crcInv {s t : State} (hinv : Inv s) (hcrc : CrcInv s) (h : step s = .next t) : CrcInv t := by
  obtain ⟨i, u, hrun, rfl⟩ := runs_of_step h
  exact (hrun.crcInv hinv hcrc).congr (hrun.inv hinv) rfl rfl rfl rfl

/-- Settles O40: every row keeps the accumulators, and so does the end of the cycle. -/
theorem crcInvariantIsKept : Obligations.CrcInvariantIsKept := fun _ _ => step_crcInv

end Sys2Proof.Machine
end

section
/-! PROOFS. The CRC engines over sequences of octets: which octets reach the sentinels, that one changed octet is
always detected, and the generators and shift-XOR forms of the tables and the steps. -/

namespace Sys2Proof.Machine

/-! ### The sentinels (R115, R125) -/

/-- The high octet of an entry tells it apart: 0x0F is that of the last entry alone, 0xF0 that of entry 0x87. -/
theorem crc16RomRead_high_eq_iff (a b : Byte) :
    (crc16RomRead a).extractLsb' 8 8 = (crc16RomRead b).extractLsb' 8 8 ↔ a = b :=
  crc16RomRead_high_injective.eq_iff

/-- A word widened and cut back is the word. -/
theorem setWidth_back {v w : Nat} (h : v ≤ w) (x : BitVec v) : (x.setWidth w).setWidth v = x := by
  rw [BitVec.setWidth_setWidth_of_le _ h, BitVec.setWidth_eq]

/-- The low octet of the result is that of the entry, with the high octet of the accumulator folded in. -/
theorem crc16_low_octet (b : Byte) (c : Half) :
    (crc16 b c).extractLsb' 0 8 =
      c.extractLsb' 8 8 ^^^ (crc16RomRead (c.extractLsb' 0 8 ^^^ b)).extractLsb' 0 8 := by
  have hlow : ((c.extractLsb' 8 8).setWidth 16).extractLsb' 0 8 = c.extractLsb' 8 8 := by
    rw [← BitVec.setWidth_eq_extractLsb' (by decide), setWidth_back (by decide)]
  rw [crc16_eq_octets, BitVec.extractLsb'_xor, hlow]

/-- A word is told by its two octets. -/
theorem half_eq_iff_octets (c d : Half) :
    c = d ↔ c.extractLsb' 8 8 = d.extractLsb' 8 8 ∧ c.extractLsb' 0 8 = d.extractLsb' 0 8 :=
  ⟨fun h => h ▸ ⟨rfl, rfl⟩, fun ⟨hhigh, hlow⟩ => half_eq_of_octets hhigh hlow⟩

/-- A term on both sides of a sum of octets cancels. -/
theorem xor_xor_xor_eq_iff (x a b l : Byte) : x ^^^ (a ^^^ b) ^^^ l = a ↔ x ^^^ l = b := by
  have hmove : x ^^^ (a ^^^ b) ^^^ l = a ^^^ (x ^^^ l ^^^ b) := by ac_rfl
  rw [hmove, ← BitVec.xor_eq_zero_iff (x := x ^^^ l)]
  conv_lhs => rhs; rw [← BitVec.xor_zero (x := a)]
  exact BitVec.xor_right_inj a

/-- A step ends at the sentinel from the accumulators with the high octet 0x0F, by the octet that selects entry
0x87, which is 0xF0B7. -/
theorem crc16_eq_sentinel_iff (b : Byte) (c : Half) :
    crc16 b c = 0xF0B8#16 ↔ c.extractLsb' 8 8 = 0x0F#8 ∧ c.extractLsb' 0 8 ^^^ b = 0x87#8 := by
  have hhigh : (0xF0B8#16).extractLsb' 8 8 = (crc16RomRead 0x87#8).extractLsb' 8 8 := by decide
  have hlow : (0xF0B8#16).extractLsb' 0 8 = 0x0F#8 ^^^ (crc16RomRead 0x87#8).extractLsb' 0 8 := by decide
  rw [half_eq_iff_octets, crc16_high_octet, crc16_low_octet, hhigh, hlow, crc16RomRead_high_eq_iff]
  constructor
  · rintro ⟨hidx, h⟩
    rw [hidx, BitVec.xor_left_inj] at h
    exact ⟨h, hidx⟩
  · rintro ⟨h, hidx⟩
    rw [hidx, h]
    exact ⟨rfl, rfl⟩

/-- A step leaves the high octet 0x0F exactly for the octet that selects the last entry: the complement of the low
octet of the accumulator. -/
theorem crc16_high_eq_iff (b : Byte) (c : Half) :
    (crc16 b c).extractLsb' 8 8 = 0x0F#8 ↔ b = ~~~ c.extractLsb' 0 8 := by
  have hlast : (0x0F#8 : Byte) = (crc16RomRead 0xFF#8).extractLsb' 8 8 := by decide
  rw [crc16_high_octet, hlast, crc16RomRead_high_eq_iff, xor_eq_allOnes_iff]

/-- Two steps end at the sentinel exactly for the complement of the accumulator, low octet first (R125). -/
theorem crc16_twice_eq_sentinel_iff (d : Half) (m l : Byte) :
    crc16 l (crc16 m d) = 0xF0B8#16 ↔ m = ~~~ d.extractLsb' 0 8 ∧ l = ~~~ d.extractLsb' 8 8 := by
  rw [crc16_eq_sentinel_iff, crc16_high_eq_iff]
  refine and_congr_right fun hm => ?_
  have hidx : d.extractLsb' 0 8 ^^^ m = 0xFF#8 := (xor_eq_allOnes_iff _ _).mpr hm
  have hentry : (crc16RomRead 0xFF#8).extractLsb' 0 8 = 0x87#8 ^^^ 0xFF#8 := by decide
  rw [crc16_low_octet, hidx, hentry, xor_xor_xor_eq_iff, xor_eq_allOnes_iff]

/-- An octet of a complement is the complement of the octet. -/
theorem octet_not (d : Half) {k : Nat} (hk : k ≤ 8) : (~~~ d).extractLsb' k 8 = ~~~ d.extractLsb' k 8 := by
  ext i hi
  simp [show k + i < 16 by omega]

/-- Settles O57: the header's is that of H_CRC; the payload's is that of two steps, with the octets of the
complement. -/
theorem crcSentinels : Obligations.CrcSentinels := by
  refine ⟨crc8_eq_sentinel_iff, fun d m l => ?_⟩
  rw [crc16_twice_eq_sentinel_iff, octet_not d (Nat.zero_le 8), octet_not d le_rfl]

/-! ### One changed octet (R116, R129) -/

/-- The order of the octet and the accumulator plays no part in the header step (R110). -/
theorem crc8_comm (b c : Byte) : crc8 b c = crc8 c b := crc8_congr_xor (BitVec.xor_comm b c)

/-- For a fixed accumulator, different octets give different results (R116). -/
theorem crc8_octet_injective (c : Byte) : Function.Injective (crc8 · c) := fun b b' h => by
  simpa only [crc8_comm _ c, (crc8_injective c).eq_iff] using h

/-- For a fixed accumulator, different octets select entries of different high octets (R129). -/
theorem crc16_octet_injective (c : Half) : Function.Injective (crc16 · c) := fun b b' h => by
  have hhigh := congrArg (BitVec.extractLsb' 8 8) h
  simp only [crc16_high_octet, crc16RomRead_high_eq_iff] at hhigh
  exact (BitVec.xor_right_inj _).mp hhigh

/-- Different accumulators stay different over any sequence. -/
theorem crc8Fold_injective (bs : List Byte) : Function.Injective (crc8Fold bs) := by
  induction bs with
  | nil => exact Function.injective_id
  | cons b bs ih => exact ih.comp (crc8_injective b)

/-- Different accumulators stay different over any sequence. -/
theorem crc16Fold_injective (bs : List Byte) : Function.Injective (crc16Fold bs) := by
  induction bs with
  | nil => exact Function.injective_id
  | cons b bs ih => exact ih.comp (crc16_injective b)

/-- Settles O58: the changed octet makes the accumulators differ, and the octets after it keep them so. -/
theorem crcDetectsOneChangedOctet : Obligations.CrcDetectsOneChangedOctet := by
  constructor <;> intro pre post b b' seed hne heq
  · rw [crc8Fold_append, crc8Fold_append, crc8Fold_cons, crc8Fold_cons] at heq
    exact hne (crc8_octet_injective _ (crc8Fold_injective post heq))
  · rw [crc16Fold_append, crc16Fold_append, crc16Fold_cons, crc16Fold_cons] at heq
    exact hne (crc16_octet_injective _ (crc16Fold_injective post heq))

/-! ### Generators and shift-XOR forms (R113, R114, R123, R124) -/

/-- The table is what the generator of R123 makes, entry by entry. -/
theorem crc16Rom_eq_serial : crc16Rom = (List.range 256).map fun i => crc16Serial (BitVec.ofNat 8 i) := by
  decide +kernel

/-- The entry at an index is the generator's. -/
theorem crc16Rom_getElem?_eq_serial (i : Byte) : crc16Rom[i.toNat]? = some (crc16Serial i) := by
  rw [crc16Rom_eq_serial, List.getElem?_map, List.getElem?_range i.isLt]
  simp

/-- The shift-XOR form of the table read, as R114 has it for a zero octet. -/
theorem crc8RomRead_eq_direct : ∀ c : Byte, crc8RomRead c = crc8Direct 0x00#8 c := by
  decide +kernel

/-- The shift-XOR form depends on the XOR of its operands only. -/
theorem crc8Direct_eq_zero_octet (b c : Byte) : crc8Direct b c = crc8Direct 0x00#8 (c ^^^ b) := by
  simp only [crc8Direct, BitVec.xor_zero]

/-- The shift-XOR form of the table read, as R124 has it for an accumulator without a high octet. -/
theorem crc16RomRead_eq_direct : ∀ c : Byte, crc16RomRead c = crc16Direct 0x00#8 (c.setWidth 16) := by
  decide +kernel

/-- The high octet of the accumulator joins the shift-XOR form as one more term. -/
theorem crc16Direct_eq_high_term (b : Byte) (c : Half) :
    crc16Direct b c = (c >>> 8) ^^^ crc16Direct 0x00#8 ((c.setWidth 8 ^^^ b).setWidth 16) := by
  have hwide (x : Half) : (x.setWidth 32).setWidth 16 = x := setWidth_back (by decide) x
  have hback (x : Byte) : (x.setWidth 16).setWidth 8 = x := setWidth_back (by decide) x
  simp only [crc16Direct, BitVec.xor_zero, hback]
  generalize c.setWidth 8 ^^^ b = lo
  have hlow : lo.setWidth 16 >>> 8 = 0#16 := by
    ext i hi
    simp
  simp only [BitVec.setWidth_xor, hwide, hlow, BitVec.zero_xor, BitVec.xor_assoc]

/-- Settles O59: both steps are a table read with what the accumulator adds, and so are both shift-XOR forms. -/
theorem crcFormsAgree : Obligations.CrcFormsAgree := by
  refine ⟨fun i => ?_, crc16Rom_getElem?_eq_serial, fun b c => ?_, fun b c => ?_⟩
  · rw [crc8Rom_getElem?, crc8RomRead_eq_serial]
  · rw [crc8Direct_eq_zero_octet, ← crc8RomRead_eq_direct, crc8]
  · rw [crc16Direct_eq_high_term, ← crc16RomRead_eq_direct, crc16]

end Sys2Proof.Machine
end

section
/-! PROOFS. The records: which rows make one, the fields it has present (R192), its shape (R185 to R187), and that
one without an error carries the CRC octets of a sender (R88). -/

namespace Sys2Proof.Machine

/-! ### The rows that make a record -/

/-- A record is the one finalize makes at the event of the cycle, of the frame with its `start_time` untouched. -/
theorem Runs.record {s u : State} {i : Instr} {r : Record} (h : Runs s i u) (hr : u.returned = .record r) :
    ∃ err v, r = finalRecord err s.ts v ∧ v.frame.startTime = s.frame.startTime := by
  cases h with
  | reset | hold | start | noise | sync | again | abandon | field | headerData | payload | msb => cases hr
  | timeout | headerBad | headerPlain | dataGood | dataBad =>
    exact ⟨_, _, (Returned.record.inj hr).symm, rfl⟩

/-! ### The fields present (R192) -/

/-- The record of a header check that ends the frame has the whole header and no payload. -/
theorem presenceRow_hCrc {octet : Byte} {s : State} {err : Option FrameError} (ts : Time)
    (hshape : HeaderShape s.frame 5)
    (herr : err = some .badHeaderCrc ∧ headerGood (crc8 octet s.frame.headerCrcRunning) = false ∨
      err = none ∧ headerGood (crc8 octet s.frame.headerCrcRunning) = true ∧ s.frame.length = 0#16) :
    PresenceRow s (.hCrc octet) (finalRecord err ts (headerCheckStep octet s)) := by
  obtain ⟨hcount, -, hmsb, hlsb⟩ := hshape.dataUnseen
  have hbytes : State.payloadBytes (headerCheckStep octet s) s.frame.payloadCount.toNat = [] := by rw [hcount]; rfl
  have hcrc : joinDataCrc s.frame.dataCrcMsb s.frame.dataCrcLsb = none := by rw [hmsb]; rfl
  refine ⟨hshape.typeSeen, hshape.dstSeen, hshape.srcSeen, rfl, hbytes, hmsb, hlsb, hcrc, rfl, ?_⟩
  rcases herr with ⟨rfl, hg⟩ | ⟨rfl, hg, hl⟩
  · exact .inl ⟨rfl, rfl, congrArg some hg⟩
  · exact .inr ⟨if_pos hl, rfl, congrArg some hg, hl⟩

/-- The record of the data check has the whole header, a complete payload and both trailing octets. -/
theorem presenceRow_dCrc2 {octet : Byte} {s : State} {err : Option FrameError} (ts : Time)
    (hshape : DataShape s.frame s.dataIdx.toNat) (hp : s.dataIdx.toNat = s.frame.length.toNat + 1)
    (herr : err = some .badDataCrc ∨ err = none) :
    PresenceRow s (.dCrc2 octet) (finalRecord err ts (lsbTaken octet s)) := by
  obtain ⟨htype, hdst, hsrc⟩ := hshape.addressed
  obtain ⟨hcrc, hcrcValid⟩ := hshape.crcSeen
  have hcount : s.frame.payloadCount.toNat = s.frame.length.toNat := by rw [hshape.countFollows]; omega
  have hmsb : s.frame.dataCrcMsb.isSome := hshape.msbSeen.trans (decide_eq_true hp)
  have hlength : s.frame.length ≠ 0#16 := fun h => by simpa [h] using hshape.lengthPositive
  have hjoin : (joinDataCrc s.frame.dataCrcMsb (some octet)).isSome := by
    obtain ⟨m, hm⟩ := Option.isSome_iff_exists.mp hmsb
    rw [hm]
    rfl
  refine ⟨htype, hdst, hsrc, rfl, hshape.lengthPositive, hcrc, hcrcValid, ?_, hmsb, rfl, hjoin, ?_⟩
  · exact (payloadBytes_length _ _).trans hcount
  · rcases herr with rfl | rfl
    · exact .inl ⟨rfl, rfl⟩
    · exact .inr ⟨if_neg hlength, rfl⟩

/-- The record of a trip, in whichever state it comes, has the fields whose octets have come. -/
theorem presenceRow_timeout {s : State} {i : Instr} (hinv : Inv s) (hi : TimeoutOf s.state i) :
    PresenceRow s i (finalRecord (some .timeout) s.ts (takeTime s)) := by
  generalize hs : s.state = st at hi
  cases hi with
  | preamble => exact presenceRow_pTimeout s.ts (u := takeTime s) (hinv.resting (.inr hs))
  | header => exact presenceRow_hTimeout s.ts rfl (hinv.inHeader hs)
  | data => exact presenceRow_dTimeout s.ts rfl (hinv.inData hs)

/-- Whatever row makes a record in a good state, the record has the fields of its operation (R192). -/
theorem Runs.presenceRow {s u : State} {i : Instr} {r : Record} (h : Runs s i u) (hinv : Inv s)
    (hr : u.returned = .record r) : PresenceRow s i r := by
  cases h with
  | reset | hold | start | noise | sync | again | abandon | field | headerData | payload | msb => cases hr
  | timeout _ _ hi =>
    obtain rfl := Returned.record.inj hr
    exact presenceRow_timeout hinv hi
  | headerBad _ _ hs hp hg =>
    obtain rfl := Returned.record.inj hr
    exact presenceRow_hCrc s.ts (by simpa [hp] using hinv.inHeader hs) (.inl ⟨rfl, hg⟩)
  | headerPlain _ _ hs hp hg hl =>
    obtain rfl := Returned.record.inj hr
    exact presenceRow_hCrc s.ts (by simpa [hp] using hinv.inHeader hs) (.inr ⟨rfl, hg, hl⟩)
  | dataGood _ _ hs hp =>
    obtain rfl := Returned.record.inj hr
    exact presenceRow_dCrc2 s.ts (hinv.inData hs) hp (.inr rfl)
  | dataBad _ _ hs hp =>
    obtain rfl := Returned.record.inj hr
    exact presenceRow_dCrc2 s.ts (hinv.inData hs) hp (.inl rfl)

/-- Settles O47: the row the cycle runs makes the record. -/
theorem recordsHaveTheirFields : Obligations.RecordsHaveTheirFields :=
  fun _ _ _ _ hinv hdec hexec hr => (runs_of_exec hdec hexec).presenceRow hinv hr

/-! ### The three shapes (R185 to R187) -/

/-- A row of R192 with the verdict of finalize is one of the shapes, made by the operations that can make it. -/
theorem recordShape_of_presenceRow {s : State} {i : Instr} {r : Record} (h : PresenceRow s i r)
    (hvalid : r.valid = validFlag r.error) (hcrc : r.dataCrc = joinDataCrc r.dataCrcMsb r.dataCrcLsb) :
    (PlainShape r ∧ ∃ b, i = .hCrc b) ∨ (DataFrameShape r ∧ ∃ b, i = .dCrc2 b) ∨
      (MalformedShape r ∧
        (i = .pTimeout ∨ i = .hTimeout ∨ i = .dTimeout ∨ (∃ b, i = .hCrc b) ∨ ∃ b, i = .dCrc2 b)) := by
  have hmalformed {e : FrameError} (hk : r.kind = .malformed) (he : r.error = some e) : MalformedShape r := by
    rw [he] at hvalid
    exact ⟨hk, by simp [he], hvalid⟩
  cases i with
  | pTimeout =>
    obtain ⟨hk, he, -⟩ := h
    exact .inr (.inr ⟨hmalformed hk he, .inl rfl⟩)
  | hTimeout =>
    obtain ⟨hk, he, -⟩ := h
    exact .inr (.inr ⟨hmalformed hk he, .inr (.inl rfl)⟩)
  | dTimeout =>
    obtain ⟨hk, he, -⟩ := h
    exact .inr (.inr ⟨hmalformed hk he, .inr (.inr (.inl rfl))⟩)
  | hCrc octet =>
    obtain ⟨htype, hdst, hsrc, hhdr, hbytes, hmsb, hlsb, hdata, -, hend⟩ := h
    rcases hend with ⟨hk, he, -⟩ | ⟨hk, he, hgood, hlen⟩
    · exact .inr (.inr ⟨hmalformed hk he, .inr (.inr (.inr (.inl ⟨octet, rfl⟩)))⟩)
    · rw [he] at hvalid
      exact .inl ⟨⟨hk, he, hvalid, htype, hdst, hsrc, hlen, by simp [hhdr], hgood, hbytes, hmsb, hlsb, hdata⟩,
        octet, rfl⟩
  | dCrc2 octet =>
    obtain ⟨htype, hdst, hsrc, -, hlen, hhdr, hgood, hbytes, hmsb, hlsb, -, hend⟩ := h
    rcases hend with ⟨hk, he⟩ | ⟨hk, he⟩
    · exact .inr (.inr ⟨hmalformed hk he, .inr (.inr (.inr (.inr ⟨octet, rfl⟩)))⟩)
    · rw [he] at hvalid
      exact .inr (.inl ⟨⟨hk, he, hvalid, htype, hdst, hsrc, hlen, hhdr, hgood, hbytes, hmsb, by simp [hlsb], hcrc⟩,
        octet, rfl⟩)
  | _ => exact h.elim

/-- Settles O48: finalize stamps the times and the verdict, and the row of R192 gives the shape. -/
theorem recordsHaveOneOfThreeShapes : Obligations.RecordsHaveOneOfThreeShapes := by
  intro s t i r hinv hdec hexec hr
  have hrun := runs_of_exec hdec hexec
  have hrow := hrun.presenceRow hinv hr
  obtain ⟨err, v, rfl, hstart⟩ := hrun.record hr
  exact ⟨hstart, rfl, recordShape_of_presenceRow hrow rfl rfl⟩

/-! ### Soundness of acceptance (R88) -/

/-- The header octets of a record whose addresses are present are those its frame has stored (R85). -/
theorem headerOctets_finalRecord {s : State} (err : Option FrameError) (ts : Time)
    (htype : s.frame.frameType.isSome) (hdst : s.frame.dstAddr.isSome) (hsrc : s.frame.srcAddr.isSome) :
    (finalRecord err ts s).headerOctets = s.frame.headerSoFar 5 := by
  obtain ⟨a, ha⟩ := Option.isSome_iff_exists.mp htype
  obtain ⟨b, hb⟩ := Option.isSome_iff_exists.mp hdst
  obtain ⟨c, hc⟩ := Option.isSome_iff_exists.mp hsrc
  simp [Record.headerOctets, Frame.headerSoFar, ha, hb, hc]

/-- A complete header has five octets before its CRC octet (R85). -/
theorem headerSoFar_length (f : Frame) : (f.headerSoFar 5).length = 5 := rfl

/-- A header octet that takes the accumulator to the sentinel is the one a sender makes (R88). -/
theorem eq_senderHeaderCrc {bs : List Byte} {octet : Byte}
    (h : crc8Fold (bs ++ [octet]) Config.hcrcSeed = Config.hcrcGood) : octet = senderHeaderCrc bs := by
  rw [crc8Fold_snoc] at h
  exact (crc8_eq_sentinel_iff _ _).mp h

/-- Two trailing octets that take the accumulator to the sentinel are those a sender makes (R88). -/
theorem eq_senderDataCrc {bs : List Byte} {m l : Byte}
    (h : crc16 l (crc16Fold (bs ++ [m]) Config.dcrcSeed) = 0xF0B8#16) : [m, l] = senderDataCrc bs := by
  rw [crc16Fold_snoc] at h
  obtain ⟨rfl, rfl⟩ := (crc16_twice_eq_sentinel_iff _ _ _).mp h
  rw [senderDataCrc, octet_not _ (Nat.zero_le 8), octet_not _ le_rfl]

/-- What a record without an error says of its octets (R88). -/
def CarriesSendersCrc (r : Record) : Prop :=
  r.headerOctets.length = 5 ∧ r.headerCrc = some (senderHeaderCrc r.headerOctets) ∧
    r.dataBytes.length = r.length.toNat ∧
    (r.dataBytes ≠ [] → r.dataCrcMsb.toList ++ r.dataCrcLsb.toList = senderDataCrc r.dataBytes)

/-- A plain record has the header CRC octet of a sender and no payload. -/
theorem carriesSendersCrc_plain {s : State} (hinv : Inv s) (hcrc : CrcInv s) (hs : s.state = .header)
    (hp : s.hdrIdx = 5#3) (hg : headerGood (crc8 s.octet s.frame.headerCrcRunning) = true)
    (hl : s.frame.length = 0#16) :
    CarriesSendersCrc (finalRecord none s.ts (headerCheckStep s.octet s)) := by
  have hshape : HeaderShape s.frame 5 := by simpa [hp] using hinv.inHeader hs
  have hoctets : (finalRecord none s.ts (headerCheckStep s.octet s)).headerOctets = s.frame.headerSoFar 5 :=
    headerOctets_finalRecord none s.ts hshape.typeSeen hshape.dstSeen hshape.srcSeen
  have hcount : (finalRecord none s.ts (headerCheckStep s.octet s)).dataBytes = [] := by
    change State.payloadBytes _ s.frame.payloadCount.toNat = []
    rw [hshape.dataUnseen.1]
    rfl
  have hfold : crc8Fold (s.frame.headerSoFar 5 ++ [s.octet]) Config.hcrcSeed = Config.hcrcGood := by
    rw [crc8Fold_snoc, ← hcrc.header_complete hs hp]
    exact (headerGood_iff _).mp hg
  refine ⟨hoctets ▸ headerSoFar_length _, ?_, ?_, fun h => absurd hcount h⟩
  · rw [hoctets]
    exact congrArg some (eq_senderHeaderCrc hfold)
  · rw [hcount]
    exact (congrArg BitVec.toNat hl).symm

/-- A data record has the CRC octets of a sender for its header and its payload. -/
theorem carriesSendersCrc_data {s : State} (hinv : Inv s) (hcrc : CrcInv s) (hs : s.state = .data)
    (hp : s.dataIdx.toNat = s.frame.length.toNat + 1)
    (hg : dataGood (crc16 s.octet s.frame.dataCrcRunning) = true) :
    CarriesSendersCrc (finalRecord none s.ts (lsbTaken s.octet s)) := by
  have hshape := hinv.inData hs
  obtain ⟨htype, hdst, hsrc⟩ := hshape.addressed
  obtain ⟨hhdr, hdata⟩ := hcrc.inData hs
  obtain ⟨h, hreceived⟩ := Option.isSome_iff_exists.mp hshape.crcSeen.1
  obtain ⟨m, hm⟩ := Option.isSome_iff_exists.mp (hshape.msbSeen.trans (decide_eq_true hp))
  have hoctets : (finalRecord none s.ts (lsbTaken s.octet s)).headerOctets = s.frame.headerSoFar 5 :=
    headerOctets_finalRecord none s.ts htype hdst hsrc
  have hbytes : (finalRecord none s.ts (lsbTaken s.octet s)).dataBytes =
      s.payloadBytes s.frame.payloadCount.toNat := rfl
  have hcount : s.frame.payloadCount.toNat = s.frame.length.toNat := by rw [hshape.countFollows]; omega
  refine ⟨hoctets ▸ headerSoFar_length _, ?_, ?_, fun _ => ?_⟩
  · rw [hoctets]
    rw [hreceived] at hhdr
    exact hreceived.trans (congrArg some (eq_senderHeaderCrc hhdr))
  · rw [hbytes, payloadBytes_length]
    exact hcount
  · rw [hbytes]
    rw [hdata, State.dataSoFar, hm] at hg
    change s.frame.dataCrcMsb.toList ++ [s.octet] = _
    rw [hm]
    exact eq_senderDataCrc ((dataGood_iff _).mp hg)

/-- Of the rows that make a record, the two without an error have passed their checks. -/
theorem Runs.carriesSendersCrc {s u : State} {i : Instr} {r : Record} (h : Runs s i u) (hinv : Inv s)
    (hcrc : CrcInv s) (hr : u.returned = .record r) (herr : r.error = none) : CarriesSendersCrc r := by
  cases h with
  | reset | hold | start | noise | sync | again | abandon | field | headerData | payload | msb => cases hr
  | timeout | headerBad | dataBad =>
    obtain rfl := Returned.record.inj hr
    cases herr
  | headerPlain _ _ hs hp hg hl =>
    obtain rfl := Returned.record.inj hr
    exact carriesSendersCrc_plain hinv hcrc hs hp hg hl
  | dataGood _ _ hs hp hg =>
    obtain rfl := Returned.record.inj hr
    exact carriesSendersCrc_data hinv hcrc hs hp hg

/-- Settles O49: the accumulators are those of the octets stored, and the octets that take them to the sentinels are
the complement a sender makes. -/
theorem acceptedRecordsCarryTheSendersCrc : Obligations.AcceptedRecordsCarryTheSendersCrc := by
  intro s t r hinv hcrc hstep hr herr
  obtain ⟨i, u, hrun, rfl⟩ := runs_of_step hstep
  exact hrun.carriesSendersCrc hinv hcrc hr herr

end Sys2Proof.Machine
end

section
/-! PROOFS. What a step keeps beyond the invariant: the registers no column of R48 lists, the order of the
timestamps (R237), the silence of `Idle` (R142); and that a good state always has a next one (R17). -/

namespace Sys2Proof.Machine

/-! ### The writers of a register (R48) -/

/-- Whatever is kept but for some registers is kept but for more of them. -/
theorem KeepsRegsBut.mono {rs rs' : List Reg} {s t : State} (h : KeepsRegsBut rs s t) (hsub : ∀ r ∈ rs, r ∈ rs') :
    KeepsRegsBut rs' s t :=
  fun r hr => h r fun hmem => hr (hsub r hmem)

theorem mem_allRegs (r : Reg) : r ∈ allRegs := by
  cases r <;> decide

/-- The columns of the operations that finalize, D_CRC2 apart, list every register (R48). -/
theorem keepsRegsBut_of_finalizing_columns {s t : State} :
    KeepsRegsBut ([.state, .hdrIdx, .dataIdx, .lastTime, .outValid] ++ frameRegs ++ outRegs) s t := by
  have hall : ∀ r ∈ allRegs, r ∈ [.state, .hdrIdx, .dataIdx, .lastTime, .outValid] ++ frameRegs ++ outRegs := by
    decide
  exact fun r hr => absurd (hall r (mem_allRegs r)) hr

/-- The column of D_CRC2 lists every register but `hdr_idx` (R48). -/
theorem keepsRegsBut_of_hdrIdx {s t : State} (hh : t.readReg .hdrIdx = s.readReg .hdrIdx) :
    KeepsRegsBut ([.state, .dataIdx, .lastTime, .outValid] ++ frameRegs ++ outRegs) s t := by
  have hall : ∀ r ∈ allRegs,
      r ∈ [.state, .dataIdx, .lastTime, .outValid] ++ frameRegs ++ outRegs ∨ r = .hdrIdx := by
    decide
  intro r hr
  rw [(hall r (mem_allRegs r)).resolve_left hr, hh]

/-- A field octet writes what its column lists. -/
theorem field_keepsRegsBut {octet : Byte} {s : State} {i : Instr} {k : BitVec 3} {f : Frame}
    (hf : FieldOctet octet s.frame k i f) :
    KeepsRegsBut (writtenRegs i) s (returnNone (headerStep octet (k + 1#3) f s)) := by
  cases hf with
  | type =>
    exact (headerStep_keepsRegsBut [.frameTypeV, .frameType] octet _ (by simp [frameRegs, State.readReg])).mono
      (by simp [writtenRegs])
  | dst =>
    exact (headerStep_keepsRegsBut [.dstAddrV, .dstAddr] octet _ (by simp [frameRegs, State.readReg])).mono
      (by simp [writtenRegs])
  | src =>
    exact (headerStep_keepsRegsBut [.srcAddrV, .srcAddr] octet _ (by simp [frameRegs, State.readReg])).mono
      (by simp [writtenRegs])
  | lenhi | lenlo =>
    exact (headerStep_keepsRegsBut [.length] octet _ (by simp [frameRegs, State.readReg])).mono (by simp [writtenRegs])

/-- Whatever row the cycle of a good state runs, it writes the registers its column lists (R48). -/
theorem Runs.keepsRegsBut {s u : State} {i : Instr} (h : Runs s i u) (hinv : Inv s) :
    KeepsRegsBut (writtenRegs i) s u := by
  cases h with
  | reset => exact fun r hr => absurd (mem_allRegs r) hr
  | hold => exact returnNone_keepsRegsBut s
  | start | noise | abandon =>
    exact keepsRegsBut_append_frameRegs (by simp [sequencingRegs, State.readReg]) rfl
  | timeout _ _ hi =>
    generalize s.state = st at hi
    cases hi <;> exact keepsRegsBut_of_finalizing_columns
  | sync =>
    exact keepsRegsBut_of_groups (by simp [sequencingRegs, State.readReg, enterHeader, writtenRegs])
      (by simp [frameRegs, State.readReg, enterHeader, writtenRegs]) rfl
  | again =>
    exact keepsRegsBut_of_groups (by simp [sequencingRegs, State.readReg, writtenRegs])
      (fun _ hr _ => readReg_congr_frame (s := s) (t := returnNone (takeTime s)) rfl hr) rfl
  | field _ _ _ hf => exact field_keepsRegsBut hf
  | headerBad | headerPlain | headerData =>
    exact keepsRegsBut_of_finalizing_columns
  | payload =>
    intro r hr
    exact (readReg_payload _ _ r).trans (((dataStep_keepsRegsBut [.payloadCount] s.octet _
      (by simp [frameRegs, State.readReg])).mono (rs' := writtenRegs (.dPayload s.octet))
        (by simp [writtenRegs])) r hr)
  | msb =>
    exact (dataStep_keepsRegsBut [.dataCrcMsbV, .dataCrcMsb] s.octet _
      (by simp [frameRegs, State.readReg])).mono (by simp [writtenRegs])
  | dataGood _ _ hs | dataBad _ _ hs =>
    have hh : s.hdrIdx = 0#3 := hinv.hdrIdle (by simp [hs])
    exact keepsRegsBut_of_hdrIdx (congrArg BitVec.toNat hh.symm)

/-- The one row that writes a cell is D_PAYLOAD, and its cell is the one at `data_idx` (R171). -/
theorem Runs.payload_cells {s u : State} {i : Instr} (h : Runs s i u) :
    u.payload = s.payload ∨
      s.state = .data ∧ s.hasEvent = true ∧ s.dataIdx.toNat < s.frame.length.toNat ∧ i = .dPayload s.octet ∧
        u.payload = Memory.write s.payload s.dataIdx.toNat s.octet := by
  cases h with
  | payload hev _ hs hp => exact .inr ⟨hs, hev, hp, rfl, rfl⟩
  | _ => exact .inl rfl

/-- Settles O43: the columns of R48, and the one cell of D_PAYLOAD, which in a good state is at `payload_count`. -/
theorem registersChangeOnlyWhereListed : Obligations.RegistersChangeOnlyWhereListed := by
  intro s t i hinv hdec hexec
  have hrun := runs_of_exec hdec hexec
  refine ⟨hrun.keepsRegsBut hinv, fun a ha => ?_⟩
  rcases hrun.payload_cells with hcells | ⟨hs, -, hp, hi, hcells⟩
  · rw [hcells]
  · have hne := ha ⟨_, hi⟩
    rw [hinv.count_eq_dataIdx hs hp] at hne
    rw [hcells, Memory.read_write_other _ _ hne]

/-! ### The silence of `Idle` (R142) -/

/-- Settles O52: of the rows of `Idle`, I_START alone leaves it, and none makes a record. -/
theorem idleIsSilent : Obligations.IdleIsSilent := by
  intro s t hs hstep
  obtain ⟨i, u, hrun, rfl⟩ := runs_of_step hstep
  cases hrun with
  | reset hr =>
    refine ⟨⟨rfl, rfl⟩, .inl rfl, fun hev => ?_⟩
    simp [(hasEvent_iff s).mp hev] at hr
  | hold hr hv =>
    refine ⟨⟨rfl, rfl⟩, .inl hs, fun hev => ?_⟩
    simp [(hasEvent_iff s).mp hev] at hv
  | start hev _ ho => exact ⟨⟨rfl, rfl⟩, .inr ⟨rfl, hev, ho⟩, fun _ _ => rfl⟩
  | noise _ _ ho => exact ⟨⟨rfl, rfl⟩, .inl hs, fun _ h => absurd h ho⟩
  | timeout _ ht => simp [trip_idle hs] at ht
  | sync _ _ h | again _ _ h | abandon _ _ h | field _ _ h | headerBad _ _ h | headerPlain _ _ h | headerData _ _ h
  | payload _ _ h | msb _ _ h | dataGood _ _ h | dataBad _ _ h => simp [hs] at h

/-! ### Times (R237) -/

/-- An earlier start leaves timestamps that rise still rising. -/
theorem stampsRise_mono {a b : Time} (hab : a.toNat ≤ b.toNat) {ps : List Pins} (h : stampsRise b ps = true) :
    stampsRise a ps = true := by
  induction ps with
  | nil => rfl
  | cons p ps ih =>
    unfold stampsRise at h ⊢
    cases hev : p.carriesEvent with
    | true =>
      simp only [hev, if_true, Bool.and_eq_true, decide_eq_true_eq] at h ⊢
      exact ⟨hab.trans h.1, h.2⟩
    | false =>
      simp only [hev] at h ⊢
      exact ih h

/-- With an event, the host's promise says that its timestamp is not before the last, and holds from there on. -/
theorem HostMonotone.of_event {s : State} (h : HostMonotone s) (hev : s.hasEvent = true) :
    s.lastTime.toNat ≤ s.ts.toNat ∧ stampsRise s.ts s.inputs.tail = true := by
  unfold HostMonotone at h
  unfold State.hasEvent at hev
  unfold State.ts
  unfold State.pins at *
  cases hin : s.inputs with
  | nil => simp [hin, Pins.carriesEvent, Pins.quiet] at hev
  | cons p ps =>
    simp only [hin, List.headD_cons, List.tail_cons] at hev ⊢
    simpa [hin, stampsRise, hev] using h

/-- Without an event, the host's promise passes to the next cycle. -/
theorem HostMonotone.of_no_event {s : State} (h : HostMonotone s) (hev : s.hasEvent = false) :
    stampsRise s.lastTime s.inputs.tail = true := by
  unfold HostMonotone at h
  unfold State.hasEvent State.pins at hev
  cases hin : s.inputs with
  | nil => rfl
  | cons p ps =>
    simp only [hin, List.headD_cons, List.tail_cons] at hev ⊢
    simpa [hin, stampsRise, hev] using h

/-- A field octet leaves the start of the attempt alone. -/
theorem FieldOctet.startTime {octet : Byte} {f g : Frame} {k : BitVec 3} {i : Instr}
    (h : FieldOctet octet f k i g) : g.startTime = f.startTime := by
  cases h <;> rfl

/-- What a row does to the times: an event takes its timestamp, starts an attempt at it or keeps the start of the one
it is in; HOLD keeps the times and RESET ends in `Idle` at time 0. -/
theorem Runs.times {s u : State} {i : Instr} (h : Runs s i u) :
    (s.hasEvent = true ∧ u.lastTime = s.ts ∧
      (u.state = .idle ∨ u.frame.startTime = s.ts ∨ (s.state ≠ .idle ∧ u.frame.startTime = s.frame.startTime))) ∨
    (s.hasEvent = false ∧ u.lastTime = s.lastTime ∧ u.state = s.state ∧ u.frame = s.frame) ∨
    (s.hasEvent = false ∧ u.lastTime = 0#64 ∧ u.state = .idle) := by
  cases h with
  | reset hr => exact .inr (.inr ⟨by simp [State.hasEvent, Pins.carriesEvent, hr], rfl, rfl⟩)
  | hold hr hv => exact .inr (.inl ⟨by simp [State.hasEvent, Pins.carriesEvent, hv], rfl, rfl, rfl⟩)
  | start hev => exact .inl ⟨hev, rfl, .inr (.inl rfl)⟩
  | noise hev hs => exact .inl ⟨hev, rfl, .inl hs⟩
  | timeout hev | abandon hev | headerBad hev | headerPlain hev | dataGood hev | dataBad hev =>
    exact .inl ⟨hev, rfl, .inl rfl⟩
  | sync hev _ hs | again hev _ hs | headerData hev _ hs | payload hev _ hs | msb hev _ hs =>
    exact .inl ⟨hev, rfl, .inr (.inr ⟨by simp [hs], rfl⟩)⟩
  | field hev _ hs hf => exact .inl ⟨hev, rfl, .inr (.inr ⟨by simp [hs], hf.startTime⟩)⟩

/-- A row that makes a record has an event and is not run in `Idle` (R142). -/
theorem Runs.record_state {s u : State} {i : Instr} {r : Record} (h : Runs s i u) (hr : u.returned = .record r) :
    s.hasEvent = true ∧ s.state ≠ .idle := by
  cases h with
  | reset | hold | start | noise | sync | again | abandon | field | headerData | payload | msb => cases hr
  | timeout hev ht => exact ⟨hev, fun hs => by simp [trip_idle hs] at ht⟩
  | headerBad hev _ hs | headerPlain hev _ hs | dataGood hev _ hs | dataBad hev _ hs =>
    exact ⟨hev, by simp [hs]⟩

/-- While the host keeps its promise, each row keeps the order of the times and of the timestamps to come. -/
theorem Runs.timesOrdered {s u : State} {i : Instr} (h : Runs s i u) (ho : TimesOrdered s) (hm : HostMonotone s) :
    TimesOrdered u ∧ stampsRise u.lastTime s.inputs.tail = true := by
  rcases h.times with ⟨hev, hlast, hstart⟩ | ⟨hev, hlast, hst, hf⟩ | ⟨hev, hlast, hst⟩
  · obtain ⟨hle, hrise⟩ := hm.of_event hev
    refine ⟨fun hu => ?_, hlast ▸ hrise⟩
    rcases hstart with hidle | hnew | ⟨hs, hold⟩
    · exact absurd hidle hu
    · rw [hnew, hlast]
    · rw [hold, hlast]
      exact (ho hs).trans hle
  · refine ⟨fun hu => ?_, hlast ▸ hm.of_no_event hev⟩
    rw [hf, hlast]
    exact ho (hst ▸ hu)
  · refine ⟨fun hu => absurd hst hu, ?_⟩
    rw [hlast]
    exact stampsRise_mono (Nat.zero_le _) (hm.of_no_event hev)

/-- No row writes the pins to come or the count of cycles. -/
theorem Runs.inputs {s u : State} {i : Instr} (h : Runs s i u) : u.inputs = s.inputs ∧ u.cycle = s.cycle := by
  cases h <;> exact ⟨rfl, rfl⟩

/-- Settles O51: a record spans from the start of the attempt to the event, which is not before the last one. -/
theorem timesStayOrdered : Obligations.TimesStayOrdered := by
  intro s t ho hm hstep
  obtain ⟨i, u, hrun, rfl⟩ := runs_of_step hstep
  obtain ⟨horder, hrise⟩ := hrun.timesOrdered ho hm
  refine ⟨horder, ?_, fun r hr => ?_⟩
  · unfold HostMonotone
    rwa [endCycle_inputs, hrun.inputs.1]
  · obtain ⟨hev, hs⟩ := hrun.record_state hr
    obtain ⟨err, v, rfl, hstart⟩ := hrun.record hr
    rw [finalRecord_startTime, finalRecord_endTime, hstart]
    exact (ho hs).trans (hm.of_event hev).1

/-! ### Progress (R17) -/

/-- An event in `Header` runs a row where the position is at most 5. -/
theorem runs_of_header {s : State} (hev : s.hasEvent = true) (ht : s.trip = false) (hs : s.state = .header)
    (hrange : s.hdrIdx.toNat ≤ 5) : ∃ i u, Runs s i u := by
  have hfield {i : Instr} {k : BitVec 3} {f : Frame} (hk : s.hdrIdx = k) (hf : FieldOctet s.octet s.frame k i f) :
      ∃ i u, Runs s i u := ⟨i, _, runs_of_field hev ht hs hk hf rfl⟩
  rcases three_bits_cases s.hdrIdx with h | h | h | h | h | h | h | h
  · exact hfield h .type
  · exact hfield h .dst
  · exact hfield h .src
  · exact hfield h .lenhi
  · exact hfield h .lenlo
  · cases hg : headerGood (crc8 s.octet s.frame.headerCrcRunning) with
    | false => exact ⟨_, _, .headerBad hev ht hs h hg⟩
    | true =>
      by_cases hl : s.frame.length = 0#16
      · exact ⟨_, _, .headerPlain hev ht hs h hg hl⟩
      · exact ⟨_, _, .headerData hev ht hs h hg hl⟩
  all_goals simp [h] at hrange

/-- An event in `Data` runs a row where the position is at most one above `length`. -/
theorem runs_of_data {s : State} (hev : s.hasEvent = true) (ht : s.trip = false) (hs : s.state = .data)
    (hrange : s.dataIdx.toNat ≤ s.frame.length.toNat + 1) : ∃ i u, Runs s i u := by
  rcases Nat.lt_trichotomy s.dataIdx.toNat s.frame.length.toNat with hp | hp | hp
  · exact ⟨_, _, .payload hev ht hs hp⟩
  · exact ⟨_, _, .msb hev ht hs hp⟩
  · cases hg : dataGood (crc16 s.octet s.frame.dataCrcRunning) with
    | true => exact ⟨_, _, .dataGood hev ht hs (by omega) hg⟩
    | false => exact ⟨_, _, .dataBad hev ht hs (by omega) hg⟩

/-- An event in `Idle` or `Preamble` runs a row, whatever its octet. -/
theorem runs_of_resting {s : State} (hev : s.hasEvent = true) (ht : s.trip = false)
    (hs : s.state = .idle ∨ s.state = .preamble) : ∃ i u, Runs s i u := by
  by_cases h55 : s.octet = 0x55#8
  · rcases hs with hs | hs
    · exact ⟨_, _, .start hev hs h55⟩
    · exact ⟨_, _, .again hev ht hs h55⟩
  · rcases hs with hs | hs
    · exact ⟨_, _, .noise hev hs h55⟩
    · by_cases hff : s.octet = 0xFF#8
      · exact ⟨_, _, .sync hev ht hs hff⟩
      · exact ⟨_, _, .abandon hev ht hs hff h55⟩

/-- An event that trips runs the timeout of its state. -/
theorem runs_of_trip {s : State} (hev : s.hasEvent = true) (ht : s.trip = true) : ∃ i u, Runs s i u := by
  have hi : ∃ i, TimeoutOf s.state i := by
    cases hs : s.state with
    | idle => simp [trip_idle hs] at ht
    | preamble => exact ⟨_, .preamble⟩
    | header => exact ⟨_, .header⟩
    | data => exact ⟨_, .data⟩
  obtain ⟨i, hi⟩ := hi
  exact ⟨i, _, .timeout hev ht hi⟩

/-- The register values at which no row takes an event in time: positions no trace reaches (R94). -/
def Unreached (s : State) : Prop :=
  s.trip = false ∧
    (s.state = .header ∧ 6 ≤ s.hdrIdx.toNat ∨ s.state = .data ∧ s.frame.length.toNat + 2 ≤ s.dataIdx.toNat)

/-- An event runs a row wherever it does not come at a position no trace reaches. -/
theorem runs_of_event {s : State} (hev : s.hasEvent = true) (hreached : ¬ Unreached s) : ∃ i u, Runs s i u := by
  cases ht : s.trip with
  | true => exact runs_of_trip hev ht
  | false =>
    cases hs : s.state with
    | idle => exact runs_of_resting hev ht (.inl hs)
    | preamble => exact runs_of_resting hev ht (.inr hs)
    | header =>
      refine runs_of_header hev ht hs (Nat.le_of_not_lt fun h => ?_)
      exact hreached ⟨ht, .inl ⟨hs, h⟩⟩
    | data =>
      refine runs_of_data hev ht hs (Nat.le_of_not_lt fun h => ?_)
      exact hreached ⟨ht, .inr ⟨hs, h⟩⟩

/-- A good state is at no such position (R38 (a), (b)). -/
theorem Inv.not_unreached {s : State} (hinv : Inv s) : ¬ Unreached s := by
  rintro ⟨-, ⟨hs, h⟩ | ⟨hs, h⟩⟩
  · have hrange := (hinv.inHeader hs).range
    omega
  · have hrange := (hinv.inData hs).range
    omega

/-- A good state runs a row, whatever its pins. -/
theorem Inv.runs {s : State} (hinv : Inv s) : ∃ i u, Runs s i u := by
  cases hr : s.pins.rst with
  | true => exact ⟨_, _, .reset hr⟩
  | false =>
    cases hv : s.pins.inValid with
    | false => exact ⟨_, _, .hold hr hv⟩
    | true => exact runs_of_event ((hasEvent_iff s).mpr ⟨hr, hv⟩) hinv.not_unreached

/-- A good state has a next state, which is good. -/
theorem Inv.step {s : State} (hinv : Inv s) : ∃ t, step s = .next t ∧ Inv t := by
  obtain ⟨i, u, hrun⟩ := hinv.runs
  exact ⟨_, hrun.step, (hrun.inv hinv).endCycle⟩

/-- A first step that answers, and then the rest of the run. -/
theorem runCycles_of_step {s t : State} (h : step s = .next t) (n : Nat) : runCycles (n + 1) s = runCycles n t := by
  rw [runCycles, h]

/-- A run that answers has a first step that answers, and the rest of the run from there. -/
theorem runCycles_succ {s u : State} {n : Nat} (h : runCycles (n + 1) s = .next u) :
    ∃ t, step s = .next t ∧ runCycles n t = .next u := by
  rw [runCycles] at h
  split at h
  · next t ht => exact ⟨t, ht, h⟩
  · cases h
  · cases h

/-- A good state runs on for any number of cycles, through good states. -/
theorem Inv.runCycles {s : State} (hinv : Inv s) (n : Nat) : ∃ t, runCycles n s = .next t ∧ Inv t := by
  induction n generalizing s with
  | zero => exact ⟨s, rfl, hinv⟩
  | succ n ih =>
    obtain ⟨t, ht, htinv⟩ := hinv.step
    obtain ⟨u, hu, huinv⟩ := ih htinv
    exact ⟨u, (runCycles_of_step ht n).trans hu, huinv⟩

/-- With any pins to come, the reset state is good. -/
theorem inv_reset (pins : List Pins) : Inv { State.reset with inputs := pins } :=
  inv_of_resting (start := 0#64) rfl (.inl rfl) rfl rfl rfl

/-- Settles O41: a good state has a next one, so that runs from reset go on through good states. -/
theorem theMachineNeverStops : Obligations.TheMachineNeverStops := by
  refine ⟨fun s hinv => ?_, fun pins n => (inv_reset pins).runCycles n⟩
  obtain ⟨t, ht, -⟩ := hinv.step
  exact ⟨t, ht⟩

/-- Settles O38: the reset state is good and in `Idle`, where neither accumulators nor times are bound. -/
theorem invariantsHoldAtReset : Obligations.InvariantsHoldAtReset :=
  ⟨inv_reset [], crcInv_of_resting (.inl rfl), fun h => absurd rfl h⟩

/-- Settles O42: the registers a state's sum-type value leaves out are 0 in a good state (R23, R24). -/
theorem sequencingIsTheSumType : Obligations.SequencingIsTheSumType := by
  intro s hinv
  cases hs : s.state with
  | idle =>
    obtain ⟨hh, hd⟩ := hinv.idle_positions (.inl hs)
    simp [State.seq, Seq.regs, hs, hh, hd]
  | preamble =>
    obtain ⟨hh, hd⟩ := hinv.idle_positions (.inr hs)
    simp [State.seq, Seq.regs, hs, hh, hd]
  | header => simp [State.seq, Seq.regs, hs, hinv.dataIdle (by simp [hs])]
  | data => simp [State.seq, Seq.regs, hs, hinv.hdrIdle (by simp [hs])]

end Sys2Proof.Machine
end

section
/-! PROOFS. Runs of many cycles: silence changes nothing (R149), the payload window (R241), and that from `Idle` on
nothing of the past is seen (R151), by a simulation between two machines. -/

namespace Sys2Proof.Machine

/-! ### Silence (R149, R232) -/

/-- What `n` quiet cycles leave: the pins are consumed, the cycles counted, and `out_valid` falls with the first. -/
def quietAfter (n : Nat) (s : State) : State :=
  { s with
    inputs := s.inputs.drop n
    cycle := s.cycle + n
    outValid := if n = 0 then s.outValid else false
    returned := if n = 0 then s.returned else .nothing }

/-- Where no pins are offered, or quiet ones, the cycle is quiet. -/
theorem pins_quiet_of_take {s : State} {n : Nat}
    (h : ∀ p ∈ s.inputs.take (n + 1), p.rst = false ∧ p.inValid = false) :
    s.pins.rst = false ∧ s.pins.inValid = false := by
  unfold State.pins
  cases hin : s.inputs with
  | nil => exact ⟨rfl, rfl⟩
  | cons p ps => exact h p (by simp [hin])

/-- `n` quiet cycles are `n` times HOLD. -/
theorem runCycles_quiet {n : Nat} {s : State} (h : ∀ p ∈ s.inputs.take n, p.rst = false ∧ p.inValid = false) :
    runCycles n s = .next (quietAfter n s) := by
  induction n generalizing s with
  | zero => rfl
  | succ n ih =>
    obtain ⟨hr, hv⟩ := pins_quiet_of_take h
    have hrest : ∀ p ∈ s.inputs.tail.take n, p.rst = false ∧ p.inValid = false := fun p hp => by
      refine h p ?_
      cases hin : s.inputs with
      | nil => simp [hin] at hp
      | cons q qs => simpa [hin] using .inr (by simpa [hin] using hp)
    rw [runCycles_of_step (Runs.hold hr hv).step, ih (s := endCycle (returnNone s)) hrest]
    simp [quietAfter, Nat.add_comm n 1, Nat.add_assoc]

/-- Quiet cycles write no register but `out_valid`. -/
theorem quietAfter_keepsRegsBut (n : Nat) (s : State) : KeepsRegsBut [.outValid] s (quietAfter n s) :=
  keepsRegsBut_of_groups (by simp [sequencingRegs, State.readReg, quietAfter])
    (fun _ h _ => readReg_congr_frame (s := s) (t := quietAfter n s) rfl h) rfl

/-- Settles O55: quiet cycles are HOLDs, which keep the frame, the record and the cells. -/
theorem silenceChangesNothing : Obligations.SilenceChangesNothing := by
  refine fun n s h => ⟨quietAfter n s, runCycles_quiet h, quietAfter_keepsRegsBut n s, fun _ => rfl, rfl, rfl,
    fun hn => ?_⟩
  have hne : n ≠ 0 := Nat.one_le_iff_ne_zero.mp hn
  exact ⟨if_neg hne, if_neg hne⟩

/-! ### The payload window (R241) -/

/-- The current cycle's event counts among the events to come. -/
theorem eventsIn_succ (s : State) (n : Nat) :
    s.eventsIn (n + 1) = s.hasEvent.toNat + (s.inputs.tail.take n).countP Pins.carriesEvent := by
  unfold State.eventsIn State.hasEvent State.pins
  cases s.inputs with
  | nil => simp [Pins.carriesEvent, Pins.quiet]
  | cons p ps => cases hp : p.carriesEvent <;> simp [hp, Nat.add_comm]

/-- A row takes an attempt at most one octet further, and only with an event. -/
theorem Runs.progress_le {s u : State} {i : Instr} (h : Runs s i u) :
    u.progress ≤ s.progress + s.hasEvent.toNat := by
  cases h with
  | reset | timeout | abandon | headerBad | headerPlain | dataGood | dataBad => exact Nat.zero_le _
  | hold => exact Nat.le_add_right s.progress _
  | start hev hs => simp [State.progress, hev]
  | noise _ hs => simp [State.progress, hs]
  | sync hev _ hs => simp [State.progress, enterHeader, hev, hs]
  | again hev _ hs => simp [State.progress, hs]
  | @field _ f hev _ hs hf =>
    have hnext : (s.hdrIdx + 1#3).toNat = s.hdrIdx.toNat + 1 := by
      generalize s.hdrIdx = k at hf
      cases hf <;> rfl
    simp [State.progress, hs, hev, hnext, Nat.add_assoc]
  | headerData hev _ hs hp => simp [State.progress, hs, hp, hev]
  | payload hev _ hs hp =>
    have hnext : (payloadTaken s.octet s).dataIdx.toNat = s.dataIdx.toNat + 1 := dataIdx_add_one_toNat hp.le
    have hst : (payloadTaken s.octet s).state = .data := hs
    simp [State.progress, hs, hst, hev, hnext, Nat.add_assoc]
  | msb hev _ hs hp =>
    have hnext : (msbTaken s.octet s).dataIdx.toNat = s.dataIdx.toNat + 1 := dataIdx_add_one_toNat hp.le
    have hst : (msbTaken s.octet s).state = .data := hs
    simp [State.progress, hs, hst, hev, hnext, Nat.add_assoc]

/-- A row that changes the cell `k` has an event and comes `8 + k` octets into an attempt. -/
theorem Runs.read_payload {s u : State} {i : Instr} (h : Runs s i u) {k : Nat}
    (hk : s.progress + s.hasEvent.toNat ≤ 8 + k) : Memory.read u.payload k = Memory.read s.payload k := by
  rcases h.payload_cells with hcells | ⟨hs, hev, -, -, hcells⟩
  · rw [hcells]
  · have hne : k ≠ s.dataIdx.toNat := fun heq => by
      simp [State.progress, hs, hev, heq] at hk
    rw [hcells, Memory.read_write_other _ _ hne]

/-- From a good state, cell `k` is kept while the octets taken and the events to come are at most `8 + k`. -/
theorem read_runCycles {n k : Nat} {s u : State} (hinv : Inv s) (h : runCycles n s = .next u)
    (hk : s.progress + s.eventsIn n ≤ 8 + k) : Memory.read u.payload k = Memory.read s.payload k := by
  induction n generalizing s with
  | zero =>
    obtain rfl := Host.Outcome.next.inj h
    rfl
  | succ n ih =>
    obtain ⟨t, hstep, hrest⟩ := runCycles_succ h
    obtain ⟨i, v, hrun, rfl⟩ := runs_of_step hstep
    rw [eventsIn_succ] at hk
    have hprogress : (endCycle v).progress ≤ s.progress + s.hasEvent.toNat := hrun.progress_le
    have hevents : (endCycle v).eventsIn n = (s.inputs.tail.take n).countP Pins.carriesEvent := by
      rw [State.eventsIn, endCycle_inputs, hrun.inputs.1]
    rw [ih (hrun.inv hinv).endCycle hrest (by omega)]
    exact hrun.read_payload (by omega)

/-- Settles O56: in `Idle` no octet of an attempt has been taken. -/
theorem payloadWindow : Obligations.PayloadWindow := by
  intro n k s u hinv hs h hk
  refine read_runCycles hinv h ?_
  rwa [State.progress, hs, Nat.zero_add]

/-! ### Two machines that report alike (R151) -/

/-- The two machines differ in nothing that either will show: they are at the same place with the same pins to come,
in an attempt with the same frame, time and payload. In `Idle` the frame and the time are not compared. -/
structure Alike (s1 s2 : State) : Prop where
  state : s2.state = s1.state
  hdrIdx : s2.hdrIdx = s1.hdrIdx
  dataIdx : s2.dataIdx = s1.dataIdx
  inputs : s2.inputs = s1.inputs
  attempt : s1.state ≠ .idle → s2.frame = s1.frame ∧ s2.lastTime = s1.lastTime
  cells : s1.state ≠ .idle → ∀ a, a < s1.frame.payloadCount.toNat →
    Memory.read s2.payload a = Memory.read s1.payload a

/-- What two machines show after a cycle: the same result, the same `out_valid`. -/
def ShowAlike (s1 s2 : State) : Prop :=
  s2.returned = s1.returned ∧ s2.outValid = s1.outValid

/-- Machines in `Idle` at the same positions are alike if the same pins are to come. -/
theorem alike_of_idle {s1 s2 : State} (h1 : s1.state = .idle) (h2 : s2.state = .idle)
    (hh : s2.hdrIdx = s1.hdrIdx) (hd : s2.dataIdx = s1.dataIdx) (hin : s2.inputs = s1.inputs) : Alike s1 s2 :=
  ⟨h2.trans h1.symm, hh, hd, hin, fun h => absurd h1 h, fun h => absurd h1 h⟩

/-- Alike machines are at the same value of the sum type (R47). -/
theorem Alike.seq {s1 s2 : State} (h : Alike s1 s2) : s2.seq = s1.seq := by
  rw [State.seq, State.seq, h.state, h.hdrIdx, h.dataIdx]

/-- The end of a cycle keeps machines alike. -/
theorem Alike.endCycle {s1 s2 : State} (h : Alike s1 s2) : Alike (endCycle s1) (endCycle s2) :=
  ⟨h.state, h.hdrIdx, h.dataIdx, congrArg List.tail h.inputs, h.attempt, h.cells⟩

/-- The record of a frame depends on the frame and on the octets of its payload. -/
theorem finalRecord_congr {err : Option FrameError} {ts : Time} {s1 s2 : State} (hf : s2.frame = s1.frame)
    (hbytes : s2.payloadBytes s1.frame.payloadCount.toNat = s1.payloadBytes s1.frame.payloadCount.toNat) :
    finalRecord err ts s2 = finalRecord err ts s1 := by
  simp only [finalRecord, stampVerdict_frame, hf, hbytes]

/-- Machines that finalize the same frame with the same payload show the same record and are alike after it. -/
theorem finalize_alike {err : Option FrameError} {ts : Time} {s1 s2 : State} (hf : s2.frame = s1.frame)
    (hbytes : s2.payloadBytes s1.frame.payloadCount.toNat = s1.payloadBytes s1.frame.payloadCount.toNat)
    (hin : s2.inputs = s1.inputs) :
    ShowAlike (finalize err ts s1) (finalize err ts s2) ∧ Alike (finalize err ts s1) (finalize err ts s2) :=
  ⟨⟨congrArg Returned.record (finalRecord_congr hf hbytes), rfl⟩, alike_of_idle rfl rfl rfl rfl hin⟩

/-- What no row of an attempt reads: the record registers, the last result, the count of cycles, and the store beyond
its written cells. -/
def withUnseen (m : Memory) (v : Bool) (o : OutRegs) (r : Returned) (c : Nat) (s : State) : State :=
  { s with payload := m, outValid := v, out := o, returned := r, cycle := c }

/-- In an attempt alike machines differ in what is not seen. -/
theorem Alike.eq_withUnseen {s1 s2 : State} (h : Alike s1 s2) (hs : s1.state ≠ .idle) :
    s2 = withUnseen s2.payload s2.outValid s2.out s2.returned s2.cycle s1 := by
  obtain ⟨hf, hl⟩ := h.attempt hs
  have hst := h.state
  have hh := h.hdrIdx
  have hd := h.dataIdx
  have hin := h.inputs
  cases s1
  cases s2
  cases hf; cases hl; cases hst; cases hh; cases hd; cases hin
  rfl

/-- In `Idle` alike machines run the same rows and show alike; an event in `Idle` makes the frame and the time anew. -/
theorem Runs.alike_idle {s1 s2 u1 : State} {i : Instr} (h : Runs s1 i u1) (hs : s1.state = .idle)
    (ha : Alike s1 s2) : ∃ u2, Runs s2 i u2 ∧ ShowAlike u1 u2 ∧ Alike u1 u2 := by
  have hs2 : s2.state = .idle := ha.state.trans hs
  have hpins : s2.pins = s1.pins := by rw [State.pins, State.pins, ha.inputs]
  have hoctet : s2.octet = s1.octet := by rw [State.octet, State.octet, hpins]
  have hts : s2.ts = s1.ts := by rw [State.ts, State.ts, hpins]
  have hev : s2.hasEvent = s1.hasEvent := by rw [State.hasEvent, State.hasEvent, hpins]
  cases h with
  | reset hr => exact ⟨_, .reset (hpins ▸ hr), ⟨rfl, rfl⟩, alike_of_idle rfl rfl rfl rfl ha.inputs⟩
  | hold hr hv =>
    exact ⟨_, .hold (hpins ▸ hr) (hpins ▸ hv), ⟨rfl, rfl⟩, alike_of_idle hs hs2 ha.hdrIdx ha.dataIdx ha.inputs⟩
  | start he _ ho =>
    refine ⟨_, .start (hev ▸ he) hs2 (hoctet ▸ ho), ⟨rfl, rfl⟩, rfl, ha.hdrIdx, ha.dataIdx, ha.inputs,
      fun _ => ⟨?_, hts⟩, fun _ a h => absurd h (Nat.not_lt_zero a)⟩
    simp only [idleEvent_frame, hts]
  | noise he _ ho =>
    refine ⟨idleEvent s2, ?_, ⟨rfl, rfl⟩, alike_of_idle hs hs2 ha.hdrIdx ha.dataIdx ha.inputs⟩
    exact hoctet ▸ .noise (hev ▸ he) hs2 (hoctet ▸ ho)
  | timeout _ ht => simp [trip_idle hs] at ht
  | sync _ _ h | again _ _ h | abandon _ _ h | field _ _ h | headerBad _ _ h | headerPlain _ _ h | headerData _ _ h
  | payload _ _ h | msb _ _ h | dataGood _ _ h | dataBad _ _ h => simp [hs] at h

/-- The payload of a good state reads the same in a store that agrees on its cells. -/
theorem payloadBytes_withUnseen {m : Memory} {s : State} (hinv : Inv s)
    (hm : ∀ a, a < s.frame.payloadCount.toNat → Memory.read m a = Memory.read s.payload a)
    (v : Bool) (o : OutRegs) (r : Returned) (c : Nat) :
    (withUnseen m v o r c s).payloadBytes s.frame.payloadCount.toNat =
      s.payloadBytes s.frame.payloadCount.toNat := by
  refine payloadBytes_congr fun a ha => ?_
  obtain ⟨b, hb⟩ := Option.isSome_iff_exists.mp (hinv.written a ha)
  rw [cell_of_read hb]
  exact cell_of_read ((hm a ha).trans hb)

/-- Stores that agree on the payload agree on it with one octet more (R171). -/
theorem read_write_congr {m p : Memory} {n : Nat} (octet : Byte)
    (hm : ∀ a, a < n → Memory.read m a = Memory.read p a) {a : Nat} (ha : a < n + 1) :
    Memory.read (Memory.write m n octet) a = Memory.read (Memory.write p n octet) a := by
  by_cases h : a = n
  · rw [h, Memory.read_write_same, Memory.read_write_same]
  · rw [Memory.read_write_other _ _ h, Memory.read_write_other _ _ h, hm a (by omega)]

/-- A field octet leaves the payload count alone. -/
theorem FieldOctet.payloadCount {octet : Byte} {f g : Frame} {k : BitVec 3} {i : Instr}
    (h : FieldOctet octet f k i g) : g.payloadCount = f.payloadCount := by
  cases h <;> rfl

/-- In an attempt, what is not seen plays no part in any row: the other machine runs the same row, shows the same and
is alike after it. -/
theorem Runs.alike_attempt {s u : State} {i : Instr} (h : Runs s i u) (hs : s.state ≠ .idle) (hinv : Inv s)
    {m : Memory} (hm : ∀ a, a < s.frame.payloadCount.toNat → Memory.read m a = Memory.read s.payload a)
    (v : Bool) (o : OutRegs) (r : Returned) (c : Nat) :
    ∃ u2, Runs (withUnseen m v o r c s) i u2 ∧ ShowAlike u u2 ∧ Alike u u2 := by
  have hbytes := payloadBytes_withUnseen hinv hm v o r c
  have halike {a b : State} (hst : b.state = a.state) (hh : b.hdrIdx = a.hdrIdx) (hd : b.dataIdx = a.dataIdx)
      (hin : b.inputs = a.inputs) (hf : b.frame = a.frame) (hl : b.lastTime = a.lastTime)
      (hcount : a.frame.payloadCount = s.frame.payloadCount) (hb : b.payload = m) (ha : a.payload = s.payload) :
      Alike a b :=
    ⟨hst, hh, hd, hin, fun _ => ⟨hf, hl⟩, fun _ k hk => by rw [hb, ha]; exact hm k (hcount ▸ hk)⟩
  cases h with
  | reset hr => exact ⟨_, .reset hr, ⟨rfl, rfl⟩, alike_of_idle rfl rfl rfl rfl rfl⟩
  | hold hr hv => exact ⟨_, .hold hr hv, ⟨rfl, rfl⟩, halike rfl rfl rfl rfl rfl rfl rfl rfl rfl⟩
  | start _ h | noise _ h => exact absurd h hs
  | timeout hev ht hi =>
    exact ⟨_, .timeout hev ht hi,
      finalize_alike (s1 := takeTime s) (s2 := takeTime (withUnseen m v o r c s)) rfl hbytes rfl⟩
  | sync hev ht hs ho =>
    exact ⟨_, .sync hev ht hs ho, ⟨rfl, rfl⟩, halike rfl rfl rfl rfl rfl rfl rfl rfl rfl⟩
  | again hev ht hs ho =>
    exact ⟨_, .again hev ht hs ho, ⟨rfl, rfl⟩, halike rfl rfl rfl rfl rfl rfl rfl rfl rfl⟩
  | abandon hev ht hs hff h55 =>
    exact ⟨_, .abandon hev ht hs hff h55, ⟨rfl, rfl⟩, alike_of_idle rfl rfl rfl rfl rfl⟩
  | field hev ht hs hf =>
    exact ⟨_, .field hev ht hs hf, ⟨rfl, rfl⟩, halike rfl rfl rfl rfl rfl rfl hf.payloadCount rfl rfl⟩
  | headerBad hev ht hs hp hg =>
    exact ⟨_, .headerBad hev ht hs hp hg, finalize_alike (s1 := headerCheckStep s.octet s)
      (s2 := headerCheckStep s.octet (withUnseen m v o r c s)) rfl hbytes rfl⟩
  | headerPlain hev ht hs hp hg hl =>
    exact ⟨_, .headerPlain hev ht hs hp hg hl, finalize_alike (s1 := headerCheckStep s.octet s)
      (s2 := headerCheckStep s.octet (withUnseen m v o r c s)) rfl hbytes rfl⟩
  | headerData hev ht hs hp hg hl =>
    exact ⟨_, .headerData hev ht hs hp hg hl, ⟨rfl, rfl⟩, halike rfl rfl rfl rfl rfl rfl rfl rfl rfl⟩
  | payload hev ht hs hp =>
    have hcount := hinv.count_eq_dataIdx hs hp
    have hnext := payloadCount_add_one_toNat (hcount.trans_lt hp)
    refine ⟨_, .payload hev ht hs hp, ⟨rfl, rfl⟩, rfl, rfl, rfl, rfl, fun _ => ⟨rfl, rfl⟩, fun _ a ha => ?_⟩
    exact read_write_congr s.octet (hcount ▸ hm) (hcount ▸ hnext ▸ ha)
  | msb hev ht hs hp =>
    exact ⟨_, .msb hev ht hs hp, ⟨rfl, rfl⟩, halike rfl rfl rfl rfl rfl rfl rfl rfl rfl⟩
  | dataGood hev ht hs hp hg =>
    exact ⟨_, .dataGood hev ht hs hp hg, finalize_alike (s1 := lsbTaken s.octet s)
      (s2 := lsbTaken s.octet (withUnseen m v o r c s)) rfl hbytes rfl⟩
  | dataBad hev ht hs hp hg =>
    exact ⟨_, .dataBad hev ht hs hp hg, finalize_alike (s1 := lsbTaken s.octet s)
      (s2 := lsbTaken s.octet (withUnseen m v o r c s)) rfl hbytes rfl⟩

/-- One step of the simulation: where one machine steps the other does, and they show alike and stay alike. -/
theorem Alike.step {s1 s2 t1 : State} (ha : Alike s1 s2) (hinv : Inv s1) (h : step s1 = .next t1) :
    ∃ t2, step s2 = .next t2 ∧ ShowAlike t1 t2 ∧ Alike t1 t2 := by
  obtain ⟨i, u1, hrun, rfl⟩ := runs_of_step h
  have hother : ∃ u2, Runs s2 i u2 ∧ ShowAlike u1 u2 ∧ Alike u1 u2 := by
    by_cases hs : s1.state = .idle
    · exact hrun.alike_idle hs ha
    · rw [ha.eq_withUnseen hs]
      exact hrun.alike_attempt hs hinv (ha.cells hs) _ _ _ _
  obtain ⟨u2, hrun2, hshow, halike⟩ := hother
  exact ⟨_, hrun2.step, hshow, halike.endCycle⟩

/-- Alike machines show alike and stay alike through any number of cycles. -/
theorem Alike.runCycles {n : Nat} {s1 s2 t1 : State} (ha : Alike s1 s2) (hinv : Inv s1)
    (h : runCycles (n + 1) s1 = .next t1) :
    ∃ t2, runCycles (n + 1) s2 = .next t2 ∧ ShowAlike t1 t2 ∧ Alike t1 t2 := by
  induction n generalizing s1 s2 with
  | zero =>
    obtain ⟨v1, hstep, hrest⟩ := runCycles_succ h
    obtain rfl := Host.Outcome.next.inj hrest
    obtain ⟨t2, hstep2, hshow, halike⟩ := ha.step hinv hstep
    exact ⟨t2, runCycles_of_step hstep2 0, hshow, halike⟩
  | succ n ih =>
    obtain ⟨v1, hstep, hrest⟩ := runCycles_succ h
    obtain ⟨v2, hstep2, -, halike⟩ := ha.step hinv hstep
    obtain ⟨t2, hrest2, hend⟩ := ih halike (step_inv hinv hstep) hrest
    exact ⟨t2, (runCycles_of_step hstep2 (n + 1)).trans hrest2, hend⟩

/-- Settles O53: two good machines in `Idle` are alike as soon as the same pins are to come. -/
theorem idleForgetsThePast : Obligations.IdleForgetsThePast := by
  intro n s1 s2 t1 hinv1 hinv2 hs1 hs2 hin h
  obtain ⟨hh1, hd1⟩ := hinv1.idle_positions (.inl hs1)
  obtain ⟨hh2, hd2⟩ := hinv2.idle_positions (.inl hs2)
  have ha : Alike s1 s2 := alike_of_idle hs1 hs2 (hh2.trans hh1.symm) (hd2.trans hd1.symm) hin.symm
  obtain ⟨t2, hrun, ⟨hret, hvalid⟩, halike⟩ := ha.runCycles hinv1 h
  exact ⟨t2, hrun, hret, hvalid, halike.seq⟩

end Sys2Proof.Machine
end

section
/-! PROOFS. A well-formed frame is reported: its octets are taken one event after another, in time and silently, up to
the last one, which ends the frame with its record (R85, R88, R151). -/

namespace Sys2Proof.Machine

/-! ### Runs without a record -/

/-- A run continued from where its first part ends. -/
theorem runCycles_add {m : Nat} {s t : State} (h : runCycles m s = .next t) (n : Nat) :
    runCycles (m + n) s = runCycles n t := by
  induction m generalizing s with
  | zero =>
    obtain rfl := Host.Outcome.next.inj h
    rw [Nat.zero_add]
  | succ m ih =>
    obtain ⟨v, hstep, hrest⟩ := runCycles_succ h
    rw [Nat.add_right_comm, runCycles_of_step hstep, ih hrest]

/-- `n` cycles lead from `s` to `t` and none of them makes a record. -/
def SilentRun (n : Nat) (s t : State) : Prop :=
  runCycles n s = .next t ∧ ∀ k v, 1 ≤ k → k ≤ n → runCycles k s = .next v → NoRecord v

/-- One silent cycle. -/
theorem silentRun_one {s t : State} (h : step s = .next t) (ht : NoRecord t) : SilentRun 1 s t := by
  have hrun : runCycles 1 s = .next t := runCycles_of_step h 0
  refine ⟨hrun, fun k v hk1 hk hv => ?_⟩
  obtain rfl : k = 1 := by omega
  obtain rfl := Host.Outcome.next.inj (hrun.symm.trans hv)
  exact ht

/-- Silent runs one after another are a silent run. -/
theorem SilentRun.trans {m n : Nat} {s t u : State} (h1 : SilentRun m s t) (h2 : SilentRun n t u) :
    SilentRun (m + n) s u := by
  refine ⟨(runCycles_add h1.1 n).trans h2.1, fun k v hk1 hk hv => ?_⟩
  by_cases hkm : k ≤ m
  · exact h1.2 k v hk1 hkm hv
  · obtain ⟨j, rfl⟩ : ∃ j, k = m + j := ⟨k - m, by omega⟩
    exact h2.2 j v (by omega) (by omega) ((runCycles_add h1.1 j).symm.trans hv)

/-! ### Octets that come in time -/

/-- Events at a constant spacing within the timeout, and the cycles after them. -/
structure Train where
  start : Time
  gap : Time
  cfg : Time
  rest : List Pins
  within : gap.toNat ≤ cfg.toNat

/-- The timestamp of the event after `k` others. -/
def Train.stamp (tr : Train) (k : Nat) : Time :=
  tr.start + tr.gap * BitVec.ofNat 64 k

theorem Train.stamp_zero (tr : Train) : tr.stamp 0 = tr.start := by
  simp [Train.stamp]

theorem Train.stamp_succ (tr : Train) (k : Nat) : tr.stamp (k + 1) = tr.stamp k + tr.gap := by
  rw [Train.stamp, Train.stamp, BitVec.ofNat_add, BitVec.mul_add, BitVec.mul_one, BitVec.add_assoc]

/-- After `k` events of the train the machine `s` is offered the octets `bs`, the last event one gap ago. -/
structure Train.Offers (tr : Train) (k : Nat) (bs : List Byte) (s : State) : Prop where
  inputs : s.inputs = eventTrain bs (tr.stamp k) tr.gap tr.cfg ++ tr.rest
  onTime : s.state ≠ .idle → s.lastTime + tr.gap = tr.stamp k

section Offered
variable {tr : Train} {k : Nat} {b : Byte} {bs : List Byte} {s : State}

theorem Train.Offers.pins (h : tr.Offers k (b :: bs) s) : s.pins = Pins.event b (tr.stamp k) tr.cfg := by
  rw [State.pins, h.inputs]
  rfl

theorem Train.Offers.hasEvent (h : tr.Offers k (b :: bs) s) : s.hasEvent = true := by
  rw [State.hasEvent, h.pins]
  rfl

theorem Train.Offers.octet (h : tr.Offers k (b :: bs) s) : s.octet = b := by
  rw [State.octet, h.pins]
  rfl

theorem Train.Offers.ts (h : tr.Offers k (b :: bs) s) : s.ts = tr.stamp k := by
  rw [State.ts, h.pins]
  rfl

/-- A gap within the timeout never trips, a timestamp that wraps neither (R135). -/
theorem gapExceeds_add {last gap cfg : Time} (h : gap.toNat ≤ cfg.toNat) :
    gapExceeds last (last + gap) cfg = false := by
  simp only [gapExceeds, BitVec.toNat_add, Bool.and_eq_false_iff, decide_eq_false_iff_not]
  omega

/-- An octet of the train is in time. -/
theorem Train.Offers.trip (h : tr.Offers k (b :: bs) s) : s.trip = false := by
  by_cases hs : s.state = .idle
  · exact trip_idle hs
  · have hcfg : s.cfgTimeout = tr.cfg := by
      rw [State.cfgTimeout, h.pins]
      rfl
    rw [State.trip, hcfg, h.ts, ← h.onTime hs, gapExceeds_add tr.within, Bool.and_false]

/-- After the event the next octet of the train is offered. -/
theorem Train.Offers.next {i : Instr} {u : State} (h : tr.Offers k (b :: bs) s) (hrun : Runs s i u)
    (hl : u.lastTime = s.ts) : tr.Offers (k + 1) bs (endCycle u) where
  inputs := by
    rw [endCycle_inputs, hrun.inputs.1, h.inputs, tr.stamp_succ]
    rfl
  onTime _ := by rw [endCycle_lastTime, hl, h.ts, tr.stamp_succ]

end Offered

/-! ### The preamble and the header -/

/-- The machine waits in `Header` for the octet at position `k`, with the frame `f`. -/
structure AtHeader (k : BitVec 3) (f : Frame) (s : State) : Prop where
  state : s.state = .header
  hdrIdx : s.hdrIdx = k
  frame : s.frame = f

/-- The frame after its preamble. -/
def preambleFrame (start : Time) : Frame :=
  { frameResetValue with startTime := start }

/-- The frame after its five field octets, with the high and the low octet of its length. -/
def headerFrame (start : Time) (type dst src hi lo : Byte) : Frame :=
  { frameResetValue with
    startTime := start
    frameType := some type
    dstAddr := some dst
    srcAddr := some src
    length := lengthLow (lengthHigh hi) lo
    headerCrcRunning := crc8Fold [type, dst, src, hi, lo] Config.hcrcSeed }

/-- From `Idle` the preamble leads to the first header octet (R140, R144). -/
theorem preamble_taken {tr : Train} {bs : List Byte} {s : State} (hs : s.state = .idle)
    (ho : tr.Offers 0 (Config.preamble1 :: Config.preamble2 :: bs) s) :
    ∃ t, SilentRun 2 s t ∧ tr.Offers 2 bs t ∧ AtHeader 0#3 (preambleFrame tr.start) t := by
  have hrun1 : Runs s .iStart { idleEvent s with state := .preamble } := .start ho.hasEvent hs ho.octet
  have hstart : s.ts = tr.start := by rw [ho.ts, tr.stamp_zero]
  have ho1 := ho.next hrun1 rfl
  have hrun2 := Runs.sync ho1.hasEvent ho1.trip rfl ho1.octet
  refine ⟨_, (silentRun_one hrun1.step ⟨rfl, rfl⟩).trans (silentRun_one hrun2.step ⟨rfl, rfl⟩),
    ho1.next hrun2 rfl, rfl, rfl, ?_⟩
  rw [← hstart]
  rfl

/-- A field octet at its position leads to the next (R156 to R160). -/
theorem field_taken {tr : Train} {n : Nat} {b : Byte} {bs : List Byte} {s : State} {k : BitVec 3} {f g : Frame}
    {i : Instr} (ho : tr.Offers n (b :: bs) s) (hat : AtHeader k f s) (hf : FieldOctet b f k i g) :
    ∃ t, SilentRun 1 s t ∧ tr.Offers (n + 1) bs t ∧
      AtHeader (k + 1#3) { g with headerCrcRunning := crc8 b f.headerCrcRunning } t := by
  obtain ⟨hs, rfl, rfl⟩ := hat
  obtain rfl := ho.octet
  have hrun := Runs.field ho.hasEvent ho.trip hs hf
  exact ⟨_, silentRun_one hrun.step ⟨rfl, rfl⟩, ho.next hrun rfl, hs, rfl, rfl⟩

/-- The five field octets fill the header (R156 to R160). -/
theorem header_taken {tr : Train} {n : Nat} {type dst src hi lo : Byte} {bs : List Byte} {s : State}
    (ho : tr.Offers n (type :: dst :: src :: hi :: lo :: bs) s)
    (hat : AtHeader 0#3 (preambleFrame tr.start) s) :
    ∃ t, SilentRun 5 s t ∧ tr.Offers (n + 5) bs t ∧
      AtHeader 5#3 (headerFrame tr.start type dst src hi lo) t := by
  obtain ⟨t1, hrun1, ho1, hat1⟩ := field_taken ho hat .type
  obtain ⟨t2, hrun2, ho2, hat2⟩ := field_taken ho1 hat1 .dst
  obtain ⟨t3, hrun3, ho3, hat3⟩ := field_taken ho2 hat2 .src
  obtain ⟨t4, hrun4, ho4, hat4⟩ := field_taken ho3 hat3 .lenhi
  obtain ⟨t5, hrun5, ho5, hat5⟩ := field_taken ho4 hat4 .lenlo
  exact ⟨t5, (((hrun1.trans hrun2).trans hrun3).trans hrun4).trans hrun5, ho5, hat5⟩

/-- The CRC octet that a sender makes passes the check (R88, R161). -/
theorem headerGood_senderHeaderCrc (bs : List Byte) :
    headerGood (crc8 (senderHeaderCrc bs) (crc8Fold bs Config.hcrcSeed)) = true :=
  (headerGood_iff _).mpr ((crc8_eq_sentinel_iff _ _).mpr rfl)

/-! ### The payload -/

/-- The frame `f` after its header check, with the payload `bytes` taken. -/
def payloadFrame (f : Frame) (bytes : List Byte) : Frame :=
  { f with
    payloadCount := BitVec.ofNat 16 bytes.length
    dataCrcRunning := crc16Fold bytes Config.dcrcSeed }

/-- The machine waits in `Data`, where the frame `f` has taken the payload `bytes`. -/
structure AtData (f : Frame) (bytes : List Byte) (s : State) : Prop where
  state : s.state = .data
  dataIdx : s.dataIdx.toNat = bytes.length
  frame : s.frame = payloadFrame f bytes
  cells : ∀ a, a < bytes.length → Memory.read s.payload a = bytes[a]?

/-- The payload the machine has taken is the one its cells give. -/
theorem AtData.payloadBytes {f : Frame} {bytes : List Byte} {s t : State} (h : AtData f bytes s)
    (hp : t.payload = s.payload) : t.payloadBytes bytes.length = bytes := by
  refine List.ext_getElem (payloadBytes_length _ _) fun a ha hb => ?_
  have hcell : t.cell a = bytes[a] := cell_of_read (by rw [hp, h.cells a hb, List.getElem?_eq_getElem hb])
  simpa [State.payloadBytes] using hcell

/-- A payload octet below `length` is taken (R171). -/
theorem payload_octet_taken {tr : Train} {n : Nat} {b : Byte} {bs bytes : List Byte} {s : State} {f : Frame}
    (ho : tr.Offers n (b :: bs) s) (hat : AtData f bytes s) (hlen : bytes.length < f.length.toNat) :
    ∃ t, SilentRun 1 s t ∧ tr.Offers (n + 1) bs t ∧ AtData f (bytes ++ [b]) t := by
  obtain ⟨hs, hidx, hf, hcells⟩ := hat
  obtain rfl := ho.octet
  have hp : s.dataIdx.toNat < s.frame.length.toNat := by rw [hidx, hf]; exact hlen
  have hrun := Runs.payload ho.hasEvent ho.trip hs hp
  refine ⟨_, silentRun_one hrun.step ⟨rfl, rfl⟩, ho.next hrun rfl, hs, ?_, ?_, fun a ha => ?_⟩
  · rw [List.length_append, ← hidx]
    exact dataIdx_add_one_toNat hp.le
  · have hcount : BitVec.ofNat 16 (bytes ++ [s.octet]).length = BitVec.ofNat 16 bytes.length + 1#16 := by
      rw [List.length_append, BitVec.ofNat_add]
      rfl
    rw [payloadFrame, hcount, crc16Fold_snoc]
    change Frame.mk .. = _
    rw [hf]
    rfl
  · change Memory.read (Memory.write s.payload s.dataIdx.toNat s.octet) a = _
    rw [List.length_append, List.length_singleton] at ha
    rw [hidx]
    by_cases heq : a = bytes.length
    · rw [heq, Memory.read_write_same, List.getElem?_concat_length]
    · have hlt : a < bytes.length := by omega
      rw [Memory.read_write_other _ _ heq, hcells a hlt, List.getElem?_append_left hlt]

/-- A payload that fits `length` is taken octet by octet (R171). -/
theorem payload_taken {tr : Train} {data bs : List Byte} {f : Frame} {n : Nat} {bytes : List Byte} {s : State}
    (ho : tr.Offers n (data ++ bs) s) (hat : AtData f bytes s)
    (hlen : bytes.length + data.length ≤ f.length.toNat) :
    ∃ t, SilentRun data.length s t ∧ tr.Offers (n + data.length) bs t ∧ AtData f (bytes ++ data) t := by
  induction data generalizing n bytes s with
  | nil =>
    refine ⟨s, ⟨rfl, fun k v hk1 hk => ?_⟩, ho, by rwa [List.append_nil]⟩
    rw [List.length_nil] at hk
    omega
  | cons b data ih =>
    rw [List.length_cons] at hlen
    obtain ⟨t1, hrun1, ho1, hat1⟩ := payload_octet_taken ho hat (by omega)
    obtain ⟨t, hrun, ho', hat'⟩ := ih ho1 hat1 (by rw [List.length_append, List.length_singleton]; omega)
    refine ⟨t, ?_, ?_, by simpa using hat'⟩
    · rw [List.length_cons, Nat.add_comm]
      exact hrun1.trans hrun
    · rwa [List.length_cons, Nat.add_comm data.length, ← Nat.add_assoc]

/-! ### The record of a frame -/

/-- A state that reports the frame of a train, whose last event comes after `k` others. -/
def ReportsFrame (tr : Train) (k : Nat) (type dst src : Byte) (data : List Byte) (u : State) : Prop :=
  ∃ r, u.returned = .record r ∧ u.outValid = true ∧ u.state = .idle ∧ u.inputs = tr.rest ∧
    r.kind = (if data = [] then .plain else .data) ∧ r.error = none ∧ r.valid = true ∧
    r.frameType = some type ∧ r.frameTypeName = nameOf (some type) ∧ r.dst = some dst ∧ r.src = some src ∧
    r.length.toNat = data.length ∧ r.headerCrcValid = some true ∧ r.dataBytes = data ∧
    r.startTime = tr.start ∧ r.endTime = tr.stamp k

/-- A frame without an error, finalized with the fields of the train's frame, is reported. -/
theorem reportsFrame_finalize {tr : Train} {k : Nat} {b type dst src : Byte} {data : List Byte} {s v : State}
    {i : Instr} (ho : tr.Offers k [b] s) (hrun : Runs s i (finalize none s.ts v))
    (htype : v.frame.frameType = some type) (hdst : v.frame.dstAddr = some dst) (hsrc : v.frame.srcAddr = some src)
    (hlength : v.frame.length.toNat = data.length) (hcrc : v.frame.headerCrcValid = some true)
    (hbytes : v.payloadBytes v.frame.payloadCount.toNat = data) (hstart : v.frame.startTime = tr.start) :
    ReportsFrame tr k type dst src data (endCycle (finalize none s.ts v)) := by
  have hkind : kindOf none v.frame.length = if data = [] then Kind.plain else .data := by
    have hiff : v.frame.length = 0#16 ↔ data = [] := by
      rw [← List.length_eq_zero_iff, ← hlength]
      exact ⟨fun h => by rw [h]; rfl, fun h => BitVec.eq_of_toNat_eq h⟩
    simp only [kindOf, hiff]
  have hname : nameOf v.frame.frameType = nameOf (some type) := by rw [htype]
  refine ⟨_, rfl, rfl, rfl, ?_, hkind, rfl, rfl, htype, hname, hdst, hsrc, hlength, hcrc, hbytes, hstart, ho.ts⟩
  rw [endCycle_inputs, hrun.inputs.1, ho.inputs]
  rfl

/-- The length made of its two octets (R86). -/
theorem lengthLow_lengthHigh_octets (length : Half) :
    lengthLow (lengthHigh (length.extractLsb' 8 8)) (length.extractLsb' 0 8) = length := by
  refine BitVec.eq_of_toNat_eq ?_
  have hlt := length.isLt
  rw [lengthLow_lengthHigh_toNat, low_octet_toNat, BitVec.extractLsb'_toNat, Nat.shiftRight_eq_div_pow]
  omega

/-- The frame after the header check has passed (R161). -/
def checkedFrame (start : Time) (type dst src : Byte) (length : Half) (crc : Byte) : Frame :=
  { frameResetValue with
    startTime := start
    frameType := some type
    dstAddr := some dst
    srcAddr := some src
    length := length
    headerCrcRunning := Config.hcrcGood
    headerCrcReceived := some crc
    headerCrcValid := some true }

/-- The header CRC octet of a frame without a payload ends it with its record (R161). -/
theorem plain_frame_reported {tr : Train} {k : Nat} {type dst src hi lo : Byte} {s : State}
    (ho : tr.Offers k [senderHeaderCrc [type, dst, src, hi, lo]] s)
    (hat : AtHeader 5#3 (headerFrame tr.start type dst src hi lo) s) (hlen : lengthLow (lengthHigh hi) lo = 0#16) :
    ∃ u, step s = .next u ∧ ReportsFrame tr k type dst src [] u := by
  obtain ⟨hs, hp, hf⟩ := hat
  have hg : headerGood (crc8 s.octet s.frame.headerCrcRunning) = true := by
    rw [ho.octet, hf]
    exact headerGood_senderHeaderCrc _
  have hrun := Runs.headerPlain ho.hasEvent ho.trip hs hp hg (by rw [hf]; exact hlen)
  refine ⟨_, hrun.step, reportsFrame_finalize ho hrun ?_ ?_ ?_ ?_ (congrArg some hg) ?_ ?_⟩
  · exact congrArg Frame.frameType hf
  · exact congrArg Frame.dstAddr hf
  · exact congrArg Frame.srcAddr hf
  · exact congrArg BitVec.toNat ((congrArg Frame.length hf).trans hlen)
  · change State.payloadBytes _ s.frame.payloadCount.toNat = []
    rw [hf]
    rfl
  · exact congrArg Frame.startTime hf

/-- The header CRC octet of a frame with a payload leads to `Data` (R161). -/
theorem header_crc_taken {tr : Train} {k : Nat} {type dst src hi lo : Byte} {bs : List Byte} {s : State}
    (ho : tr.Offers k (senderHeaderCrc [type, dst, src, hi, lo] :: bs) s)
    (hat : AtHeader 5#3 (headerFrame tr.start type dst src hi lo) s) (hlen : lengthLow (lengthHigh hi) lo ≠ 0#16) :
    ∃ t, SilentRun 1 s t ∧ tr.Offers (k + 1) bs t ∧
      AtData (checkedFrame tr.start type dst src (lengthLow (lengthHigh hi) lo)
        (senderHeaderCrc [type, dst, src, hi, lo])) [] t := by
  obtain ⟨hs, hp, hf⟩ := hat
  have hg : headerGood (crc8 s.octet s.frame.headerCrcRunning) = true := by
    rw [ho.octet, hf]
    exact headerGood_senderHeaderCrc _
  have hrun := Runs.headerData ho.hasEvent ho.trip hs hp hg (by rw [hf]; exact hlen)
  refine ⟨_, silentRun_one hrun.step ⟨rfl, rfl⟩, ho.next hrun rfl, rfl, rfl, ?_, nofun⟩
  change (enterData (headerCheckStep s.octet s)).frame = _
  rw [enterData_frame, headerCheckStep_frame_eq, (headerGood_iff _).mp hg, hf, ho.octet]
  rfl

/-- The machine waits for the last octet of the frame `f` with the payload `data`, after the trailing octet `m`. -/
structure AtLastOctet (f : Frame) (data : List Byte) (m : Byte) (s : State) : Prop where
  state : s.state = .data
  dataIdx : s.dataIdx.toNat = data.length + 1
  frame : s.frame =
    { payloadFrame f data with
      dataCrcMsb := some m
      dataCrcRunning := crc16 m (crc16Fold data Config.dcrcSeed) }
  cells : ∀ t : State, t.payload = s.payload → t.payloadBytes data.length = data

/-- The first trailing octet of a complete payload is taken (R172). -/
theorem msb_taken {tr : Train} {k : Nat} {m : Byte} {bs data : List Byte} {f : Frame} {s : State}
    (ho : tr.Offers k (m :: bs) s) (hat : AtData f data s) (hlen : data.length = f.length.toNat) :
    ∃ t, SilentRun 1 s t ∧ tr.Offers (k + 1) bs t ∧ AtLastOctet f data m t := by
  obtain rfl := ho.octet
  have hp : s.dataIdx.toNat = s.frame.length.toNat := by rw [hat.dataIdx, hlen, hat.frame]; rfl
  have hrun := Runs.msb ho.hasEvent ho.trip hat.state hp
  refine ⟨_, silentRun_one hrun.step ⟨rfl, rfl⟩, ho.next hrun rfl, hat.state, ?_, ?_, fun t => hat.payloadBytes⟩
  · exact (dataIdx_add_one_toNat hp.le).trans (congrArg (· + 1) hat.dataIdx)
  · change (msbTaken s.octet s).frame = _
    rw [msbTaken, dataStep_frame, hat.frame]
    rfl

/-- The two trailing octets that a sender makes pass the check (R88, R173). -/
theorem dataGood_senderDataCrc {m l : Byte} {data : List Byte} (h : [m, l] = senderDataCrc data) :
    dataGood (crc16 l (crc16 m (crc16Fold data Config.dcrcSeed))) = true := by
  rw [senderDataCrc, octet_not _ (Nat.zero_le 8), octet_not _ le_rfl] at h
  obtain ⟨rfl, rfl⟩ : m = _ ∧ l = _ := by simpa using h
  exact (dataGood_iff _).mpr ((crc16_twice_eq_sentinel_iff _ _ _).mpr ⟨rfl, rfl⟩)

/-- The second trailing octet that a sender makes ends the frame with its record (R88, R173). -/
theorem data_frame_reported {tr : Train} {k : Nat} {type dst src crc m l : Byte} {length : Half} {data : List Byte}
    {s : State} (ho : tr.Offers k [l] s)
    (hat : AtLastOctet (checkedFrame tr.start type dst src length crc) data m s)
    (hlen : data.length = length.toNat) (hcrc : [m, l] = senderDataCrc data) :
    ∃ u, step s = .next u ∧ ReportsFrame tr k type dst src data u := by
  have hf := hat.frame
  have hg : dataGood (crc16 s.octet s.frame.dataCrcRunning) = true := by
    rw [ho.octet, hf]
    exact dataGood_senderDataCrc hcrc
  have hp : s.dataIdx.toNat = s.frame.length.toNat + 1 := by
    rw [hat.dataIdx, hlen, hf]
    rfl
  have hcount : s.frame.payloadCount.toNat = data.length := by
    rw [hf]
    exact (BitVec.toNat_ofNat _ _).trans (Nat.mod_eq_of_lt (hlen ▸ length.isLt))
  have hrun := Runs.dataGood ho.hasEvent ho.trip hat.state hp hg
  refine ⟨_, hrun.step, reportsFrame_finalize ho hrun ?_ ?_ ?_ ?_ ?_ ?_ ?_⟩
  · exact congrArg Frame.frameType hf
  · exact congrArg Frame.dstAddr hf
  · exact congrArg Frame.srcAddr hf
  · exact (congrArg (BitVec.toNat ∘ Frame.length) hf).trans hlen.symm
  · exact congrArg Frame.headerCrcValid hf
  · change State.payloadBytes (lsbTaken s.octet s) s.frame.payloadCount.toNat = data
    rw [hcount]
    exact hat.cells _ rfl
  · exact congrArg Frame.startTime hf

/-! ### The whole frame -/

/-- The octets of a frame, one by one up to the header check (R85, R101). -/
theorem frameOctets_eq (type dst src : Byte) (data : List Byte) :
    frameOctets type dst src data =
      Config.preamble1 :: Config.preamble2 :: type :: dst :: src ::
        (BitVec.ofNat 16 data.length).extractLsb' 8 8 :: (BitVec.ofNat 16 data.length).extractLsb' 0 8 ::
        senderHeaderCrc (headerOctets type dst src data.length) ::
        (if data = [] then [] else data ++ senderDataCrc data) := rfl

/-- From `Idle` all octets of a frame but the last are taken silently, and the last one reports it. -/
theorem frame_reported {tr : Train} {type dst src : Byte} {data : List Byte} {s : State} (hs : s.state = .idle)
    (hdata : data.length ≤ 65535) (ho : tr.Offers 0 (frameOctets type dst src data) s) :
    ∃ n t u, (frameOctets type dst src data).length = n + 1 ∧ SilentRun n s t ∧ step t = .next u ∧
      ReportsFrame tr n type dst src data u := by
  rw [frameOctets_eq] at ho ⊢
  obtain ⟨t2, hrun2, ho2, hat2⟩ := preamble_taken hs ho
  obtain ⟨t7, hrun7, ho7, hat7⟩ := header_taken ho2 hat2
  have hlength := lengthLow_lengthHigh_octets (BitVec.ofNat 16 data.length)
  have hnat : (BitVec.ofNat 16 data.length).toNat = data.length := by
    rw [BitVec.toNat_ofNat]
    omega
  by_cases hnil : data = []
  · subst hnil
    obtain ⟨u, hstep, hreport⟩ := plain_frame_reported ho7 hat7 hlength
    exact ⟨7, t7, u, rfl, hrun2.trans hrun7, hstep, hreport⟩
  · have hpos : lengthLow _ _ ≠ 0#16 := fun h => by
      have hzero := congrArg BitVec.toNat (hlength.symm.trans h)
      rw [hnat] at hzero
      exact hnil (List.length_eq_zero_iff.mp hzero)
    rw [if_neg hnil] at ho7
    obtain ⟨t8, hrun8, ho8, hat8⟩ := header_crc_taken ho7 hat7 hpos
    rw [hlength] at hat8
    obtain ⟨t9, hrun9, ho9, hat9⟩ := payload_taken ho8 hat8 (by
      change 0 + data.length ≤ (BitVec.ofNat 16 data.length).toNat
      omega)
    obtain ⟨t10, hrun10, ho10, hat10⟩ := msb_taken ho9 hat9 hnat.symm
    obtain ⟨u, hstep, hreport⟩ := data_frame_reported ho10 hat10 hnat.symm rfl
    refine ⟨8 + data.length + 1, t10, u, ?_, ?_, hstep, hreport⟩
    · rw [if_neg hnil, senderDataCrc]
      simp only [List.length_cons, List.length_append, List.length_nil]
      omega
    · exact (((hrun2.trans hrun7).trans hrun8).trans hrun9).trans hrun10

/-- Settles O54: the frame's events are a train within the timeout, and a run of all of them is the silent run and the
step that reports. -/
theorem wellFormedFrameIsReported : Obligations.WellFormedFrameIsReported := by
  intro s type dst src data t0 gap cfg rest hinv hs hdata hgap hin
  have ho : Train.Offers ⟨t0, gap, cfg, rest, hgap⟩ 0 (frameOctets type dst src data) s :=
    ⟨by rw [Train.stamp_zero]; exact hin, fun h => absurd hs h⟩
  obtain ⟨n, t, u, hn, hsilent, hstep, r, hreport⟩ := frame_reported hs hdata ho
  rw [hn]
  refine ⟨fun k v hk1 hk => hsilent.2 k v hk1 (by omega), u, r, ?_, hreport⟩
  exact (runCycles_add hsilent.1 1).trans (runCycles_of_step hstep 0)

end Sys2Proof.Machine
end

section
/-! PROOFS. The words that match no row and the event level (R94, R138): where the decoder refuses, the case analysis
of `process` has no arm, and everywhere else the two agree. -/

namespace Sys2Proof.Machine

/-! ### The words of R94 -/

/-- The field columns name no operation exactly for the words of R94. -/
theorem opByFields_eq_none_iff (rst inValid trip : Bool) (st : BitVec 2) (pos : BitVec 3) (octet : Byte) :
    opByFields rst inValid trip st.toNat pos.toNat octet = none ↔
      rst = false ∧ inValid = true ∧ trip = false ∧
        ((st = 2#2 ∧ 6 ≤ pos.toNat) ∨ (st = 3#2 ∧ 3 ≤ pos.toNat)) := by
  cases rst with
  | true => simp [opByFields]
  | false =>
    cases inValid with
    | false => simp [opByFields]
    | true =>
      rcases two_bits_cases st with rfl | rfl | rfl | rfl
      · simp [opByFields]
      · simp [opByFields]
      all_goals
        cases trip <;> rcases three_bits_cases pos with rfl | rfl | rfl | rfl | rfl | rfl | rfl | rfl <;>
          simp [opByFields]

/-- The decoder refuses a word exactly where it names no operation. -/
theorem exists_decode_error_iff (w : BitVec 16) : (∃ e, decode w = .error e) ↔ (decode w).toOption = none := by
  cases decode w <;> simp [Except.toOption]

/-- A refused word stops the step by name (log entry 8). -/
theorem step_of_decode_error {s : State} {e : DecodeReject} (h : decode s.word = .error e) :
    step s = .refused (.unmatchedWord s.word) := by
  rw [step, runCycle, h]

/-- Settles O31: the decoder follows the field columns, and the step refuses what it refuses. -/
theorem unmatchedWordsAreRefused : Obligations.UnmatchedWordsAreRefused := by
  refine ⟨fun rst inValid trip st pos octet => ?_, fun s e => step_of_decode_error⟩
  rw [exists_decode_error_iff, toOption_decode, opByFields_eq_none_iff]

/-! ### The step against `process` (R138) -/

/-- At a position no trace reaches the step refuses the event. -/
theorem step_of_unreached {s : State} (hev : s.hasEvent = true) (h : Unreached s) : step s = unreached s := by
  obtain ⟨hrst, hvalid⟩ := (hasEvent_iff s).mp hev
  obtain ⟨ht, hpos⟩ := h
  have herr : ∃ e, decode s.word = .error e := by
    rw [State.word, hrst, hvalid, ht, exists_decode_error_iff, toOption_decode, opByFields_eq_none_iff]
    refine ⟨rfl, rfl, rfl, ?_⟩
    rcases hpos with ⟨hs, hp⟩ | ⟨hs, hp⟩
    · exact .inl ⟨by rw [hs]; rfl, by rwa [posClass_of_header hs]⟩
    · have hclass : dataClass s.dataIdx s.frame.length = 3#3 := by
        rw [dataClass, if_neg (by omega), if_neg (by omega), if_neg (by omega)]
      exact .inr ⟨by rw [hs]; rfl, by rw [posClass_of_data hs, hclass]; decide⟩
  obtain ⟨e, he⟩ := herr
  exact step_of_decode_error he

/-- At a position no trace reaches `process` has no arm. -/
theorem process_of_unreached {s : State} (h : Unreached s) : process s = unreached s := by
  obtain ⟨ht, ⟨hs, hp⟩ | ⟨hs, hp⟩⟩ := h
  · rcases three_bits_cases s.hdrIdx with h | h | h | h | h | h | h | h <;>
      simp [h] at hp <;> simp [process, hs, ht, processHeader, h]
  · have h1 : ¬ s.dataIdx.toNat < s.frame.length.toNat := by omega
    have h2 : s.dataIdx.toNat ≠ s.frame.length.toNat := by omega
    have h3 : s.dataIdx.toNat ≠ s.frame.length.toNat + 1 := by omega
    simp [process, hs, ht, processData, h1, h2, h3]

/-- A field octet at its position is an arm of `process`. -/
theorem processHeader_field {s : State} {i : Instr} {f : Frame}
    (hf : FieldOctet s.octet s.frame s.hdrIdx i f) : processHeader s.octet s = exec i s := by
  unfold processHeader
  generalize s.hdrIdx = k at hf
  cases hf <;> rfl

/-- The trip of an event is an arm of `process` in each state. -/
theorem process_timeout {s : State} {i : Instr} (ht : s.trip = true) (hi : TimeoutOf s.state i) :
    process s = exec i s := by
  generalize hs : s.state = st at hi
  cases hi <;> simp [process, hs, ht, exec]

/-- The operation of an event is the arm of `process`. -/
theorem Runs.process {s u : State} {i : Instr} (h : Runs s i u) (hev : s.hasEvent = true) :
    Machine.process s = Machine.exec i s := by
  cases h with
  | reset hr => simp [(hasEvent_iff s).mp hev] at hr
  | hold _ hv => simp [(hasEvent_iff s).mp hev] at hv
  | start _ hs ho | noise _ hs ho => simp [Machine.process, hs, ho, Config.preamble1, Machine.exec]
  | timeout _ ht hi => exact process_timeout ht hi
  | sync _ ht hs ho => simp [Machine.process, hs, ht, ho, Config.preamble2, Machine.exec]
  | again _ ht hs ho =>
    simp [Machine.process, hs, ht, ho, Config.preamble1, Config.preamble2, Machine.exec]
  | abandon _ ht hs hff h55 =>
    simp [Machine.process, hs, ht, hff, h55, Config.preamble1, Config.preamble2, Machine.exec]
  | field _ ht hs hf => simpa [Machine.process, hs, ht] using processHeader_field hf
  | headerBad _ ht hs hp | headerPlain _ ht hs hp | headerData _ ht hs hp =>
    simp [Machine.process, hs, ht, processHeader, hp, Machine.exec]
  | payload _ ht hs hp => simp [Machine.process, hs, ht, processData, hp, Machine.exec]
  | msb _ ht hs hp => simp [Machine.process, hs, ht, processData, hp, Machine.exec]
  | dataGood _ ht hs hp | dataBad _ ht hs hp =>
    simp [Machine.process, hs, ht, processData, hp, Machine.exec]

/-- A step on an event is `process` and the end of the cycle, in every state. -/
theorem step_eq_process {s : State} (hev : s.hasEvent = true) : step s = onNext endCycle (process s) := by
  by_cases hun : Unreached s
  · rw [step_of_unreached hev hun, process_of_unreached hun]
    rfl
  · obtain ⟨i, u, hrun⟩ := runs_of_event hev hun
    rw [hrun.step, hrun.process hev, hrun.exec]
    rfl

/-- The operations that return a record, with the condition under which H_CRC does (R150). -/
theorem Runs.record_iff {s u : State} {i : Instr} (h : Runs s i u) :
    (∃ r, u.returned = .record r) ↔
      i = .pTimeout ∨ i = .hTimeout ∨ i = .dTimeout ∨ i = .dCrc2 s.octet ∨
        (i = .hCrc s.octet ∧ (crc8 s.octet s.frame.headerCrcRunning ≠ 0x55#8 ∨ s.frame.length = 0#16)) := by
  cases h with
  | reset | hold | start | noise | sync | again | abandon | payload | msb =>
    simp [idleEvent, returnNone, State.reset]
  | timeout _ _ hi =>
    generalize s.state = st at hi
    cases hi <;> simp
  | field _ _ _ hf =>
    generalize s.hdrIdx = k at hf
    cases hf <;> simp
  | headerBad _ _ _ _ hg =>
    have hne : crc8 s.octet s.frame.headerCrcRunning ≠ 0x55#8 := by simp [← headerGood_iff, hg]
    simp [hne]
  | headerPlain _ _ _ _ _ hl => simp [hl]
  | headerData _ _ _ _ hg hl => simp [(headerGood_iff _).mp hg, hl]
  | dataGood | dataBad => simp

/-- `out_valid` is raised exactly with a record (R43). -/
theorem outValid_iff_of_outputsAgree {t : State} (h : OutputsAgree t) :
    t.outValid = true ↔ ∃ r, t.returned = .record r := by
  rcases h with ⟨hv, r, hr, -⟩ | ⟨hv, hr⟩
  · exact ⟨fun _ => ⟨r, hr⟩, fun _ => hv⟩
  · simp [hv, hr]

/-- Settles O36: the rows of the decoder are the arms of `process`, and of these the finalizing ones make a record. -/
theorem stepOnAnEventIsProcess : Obligations.StepOnAnEventIsProcess := by
  refine fun s hev => ⟨step_eq_process hev, fun t hstep => ?_⟩
  have hagree := (outputsFollowTheRecord s t hstep).1
  obtain ⟨i, u, hrun, rfl⟩ := runs_of_step hstep
  refine ⟨?_, outValid_iff_of_outputsAgree hagree, ?_⟩
  · rcases hrun.times with ⟨-, hl, -⟩ | ⟨hno, -⟩ | ⟨hno, -⟩
    · exact hl
    · simp [hev] at hno
    · simp [hev] at hno
  · simpa [hrun.decode] using hrun.record_iff

end Sys2Proof.Machine
end

section
/-! PROOFS. The decoder's answers against the encoder (R93), the placement of a word (log entry 2), and the statements
about single operations and about the trip bit. -/

namespace Sys2Proof.Machine

/-! ### What the decoder answers (R93) -/

/-- Every decoded operation is well formed: the rows "other" are reached past the octets they exclude. -/
theorem decode_wellFormed {w : BitVec 16} {i : Instr} (h : decode w = .ok i) : i.wellFormed = true := by
  rw [← packWord_fields w] at h
  cases hr : wordRst w with
  | true =>
    obtain rfl := decode_rst (hr ▸ h)
    rfl
  | false =>
    cases hv : wordInValid w with
    | false =>
      obtain rfl := decode_quiet (hr ▸ hv ▸ h)
      rfl
    | true =>
      rw [hr, hv] at h
      rcases two_bits_cases (wordState w) with hs | hs | hs | hs <;> rw [hs] at h
      · rcases decode_idle h with ⟨-, rfl⟩ | ⟨h55, rfl⟩
        · rfl
        · simpa [Instr.wellFormed, noiseOctetOk, Config.preamble1] using h55
      · rcases decode_preamble h with ⟨-, rfl⟩ | ⟨-, -, rfl⟩ | ⟨-, -, rfl⟩ | ⟨-, hff, h55, rfl⟩
        · rfl
        · rfl
        · rfl
        · simpa [Instr.wellFormed, abandonOctetOk, Config.preamble1, Config.preamble2] using ⟨hff, h55⟩
      · rcases decode_header h with ⟨-, rfl⟩ | ⟨-, -, rfl⟩ | ⟨-, -, rfl⟩ | ⟨-, -, rfl⟩ | ⟨-, -, rfl⟩ | ⟨-, -, rfl⟩ |
          ⟨-, -, rfl⟩ <;> rfl
      · rcases decode_data h with ⟨-, rfl⟩ | ⟨-, -, rfl⟩ | ⟨-, -, rfl⟩ | ⟨-, -, rfl⟩ <;> rfl

/-- Every row builds operations of its own mnemonic. -/
theorem opTable_build_mnemonic {r : OpRow} (hr : r ∈ opTable) (octet : Byte) :
    (r.build octet).mnemonic = r.mnemonic := by
  revert r
  simp [opTable, Instr.mnemonic]

/-- No two rows have one mnemonic, so rows of one mnemonic test alike. -/
theorem opTable_mnemonic_inj : ∀ r1 ∈ opTable, ∀ r2 ∈ opTable, r1.mnemonic = r2.mnemonic →
    r1.mask = r2.mask ∧ r1.pattern = r2.pattern := by
  decide

/-- Settles O33: the row a word was read from has the mnemonic of the operation, and so has the row of the operation's
own word, which is therefore the same. -/
theorem decodedOperationsAreWellFormed : Obligations.DecodedOperationsAreWellFormed := by
  intro w i h
  have hwf := decode_wellFormed h
  have hdis := decode_dispatched h
  obtain ⟨v, hv⟩ : ∃ v, encode i = some v := Option.isSome_iff_exists.mp ((encode_isSome i).trans hdis)
  obtain ⟨r, hr, hadmits, hi⟩ := decode_row h
  obtain ⟨r', hr', hadmits', hi'⟩ := decode_row (decode_encode hwf hv)
  have hname : r.mnemonic = i.mnemonic := by rw [hi, opTable_build_mnemonic hr]
  have hname' : r'.mnemonic = i.mnemonic := by rw [hi', opTable_build_mnemonic hr']
  obtain ⟨hmask, hpattern⟩ := opTable_mnemonic_inj r hr r' hr' (hname.trans hname'.symm)
  exact ⟨hwf, hdis, v, r, hv, hr, hname, hadmits, by rwa [OpRow.admits, hmask, hpattern]⟩

/-! ### The placement of a word (log entry 2) -/

/-- The codes of the receive states are all the codes of two bits (R96). -/
theorem code_ofCode : ∀ c : BitVec 2, (RxState.ofCode c).code = c := by decide

/-- The length that `placePosition` gives a `Data` state: at least 1 (log entry 2). -/
def placedLength (length : Half) : Half :=
  if length = 0#16 then 1#16 else length

theorem placedLength_pos (length : Half) : 0 < (placedLength length).toNat := by
  unfold placedLength
  split_ifs with h
  · decide
  · exact Nat.pos_of_ne_zero fun h0 => h (BitVec.eq_of_toNat_eq h0)

/-- The position beside `length` that `placePosition` gives a `Data` state for a class (log entry 2). -/
def placedIdx (pos : BitVec 3) (length : Half) : Idx17 :=
  if pos = 0#3 then 0#17
  else if pos = 1#3 then length.setWidth 17
  else if pos = 2#3 then length.setWidth 17 + 1#17
  else length.setWidth 17 + 2#17

/-- The placed position has the class it was placed for; the classes that no row has are one (log entry 8). -/
theorem dataClass_placedIdx (pos : BitVec 3) {length : Half} (hpos : 0 < length.toNat) :
    dataClass (placedIdx pos length) length = if pos.toNat < 3 then pos else 3#3 := by
  have hlt := length.isLt
  have hbeyond : dataClass (length.setWidth 17 + 2#17) length = 3#3 := by
    have hidx : (length.setWidth 17 + 2#17).toNat = length.toNat + 2 := by
      rw [BitVec.toNat_add, BitVec.toNat_setWidth, BitVec.toNat_ofNat]
      omega
    rw [dataClass, hidx, if_neg (by omega), if_neg (by omega), if_neg (by omega)]
  have hwide : (length.setWidth 17).toNat = length.toNat := by
    rw [BitVec.toNat_setWidth]
    omega
  rcases three_bits_cases pos with rfl | rfl | rfl | rfl | rfl | rfl | rfl | rfl
  · exact dataClass_of_lt hpos
  · exact dataClass_of_eq hwide
  · exact dataClass_of_eq_succ ((dataIdx_add_one_toNat hwide.le).trans (congrArg (· + 1) hwide))
  all_goals exact hbeyond

/-- The fields of a `Data` state placed for a class. -/
theorem placePosition_data (pos : BitVec 3) (s : State) :
    placePosition .data pos s =
      { s with
        state := .data
        dataIdx := placedIdx pos (placedLength s.frame.length)
        frame := { s.frame with length := placedLength s.frame.length } } := rfl

/-- The state placed is the one wanted. -/
theorem placePosition_state (st : RxState) (pos : BitVec 3) (s : State) : (placePosition st pos s).state = st := by
  cases st <;> rfl

/-- The position placed has the class wanted, where the row tests it and a row has it. -/
theorem placePosition_posClass (st : RxState) (pos : BitVec 3) (s : State) :
    (st = .header → (placePosition st pos s).posClass = pos) ∧
      (st = .data → (placePosition st pos s).posClass = if pos.toNat < 3 then pos else 3#3) := by
  constructor
  · rintro rfl
    rfl
  · rintro rfl
    rw [posClass_of_data (placePosition_state _ _ _), placePosition_data]
    exact dataClass_placedIdx pos (placedLength_pos _)

/-- Placing the trip bit offers the pins of the word and keeps the place. -/
theorem placeTrip_fields (trip : Bool) (w : BitVec 16) (s : State) :
    (placeTrip trip w s).state = s.state ∧ (placeTrip trip w s).posClass = s.posClass ∧
      (placeTrip trip w s).pins.rst = wordRst w ∧ (placeTrip trip w s).pins.inValid = wordInValid w ∧
      (placeTrip trip w s).octet = wordOctet w := by
  cases trip <;> exact ⟨rfl, rfl, rfl, rfl, rfl⟩

/-- The trip bit placed is the one wanted (R148). -/
theorem placeTrip_trip {trip : Bool} (w : BitVec 16) {s : State} (h : trip = true → s.state ≠ .idle) :
    (placeTrip trip w s).trip = trip := by
  cases trip with
  | true =>
    refine (trip_iff _).mpr ⟨h rfl, ?_, ?_⟩
    · change (0#64).toNat < (1#64).toNat
      decide
    · change (0#64).toNat < (1#64).toNat - (0#64).toNat
      decide
  | false =>
    refine Bool.eq_false_iff.mpr fun ht => ?_
    obtain ⟨-, hlt, -⟩ := (trip_iff _).mp ht
    exact lt_irrefl s.lastTime.toNat hlt

/-- The columns a row ignores may be placed otherwise: the trip bit in `Idle`, the position before a header, and the
classes of `Data` that no row has. -/
theorem opByFields_placed {trip : Bool} {st : BitVec 2} {pos pos' : BitVec 3} {octet : Byte} {i : Instr}
    (h : opByFields false true trip st.toNat pos.toNat octet = some i) (hheader : st = 2#2 → pos' = pos)
    (hdata : st = 3#2 → pos' = if pos.toNat < 3 then pos else 3#3) :
    opByFields false true (trip && st != 0#2) st.toNat pos'.toNat octet = some i := by
  rcases two_bits_cases st with rfl | rfl | rfl | rfl
  · exact h
  · simpa [opByFields] using h
  · rw [hheader rfl]
    simpa using h
  · rw [hdata rfl]
    cases trip with
    | true => simpa [opByFields] using h
    | false =>
      by_cases hp : pos.toNat < 3
      · rw [if_pos hp]
        exact h
      · have hnone := (opByFields_eq_none_iff false true false 3#2 pos octet).mpr
          ⟨rfl, rfl, rfl, .inr ⟨rfl, Nat.le_of_not_lt hp⟩⟩
        cases hnone.symm.trans h

/-- `Idle` is the state of code 0 (R96). -/
theorem idle_of_code {st : RxState} : (st != .idle) = (st.code != 0#2) := by
  cases st <;> rfl

/-- A word that carries an event is placed so that the word formed decodes alike. -/
theorem decode_placed_event {s : State} {w : BitVec 16} {i : Instr} (h : decode w = .ok i)
    (hr : wordRst w = false) (hv : wordInValid w = true) : decode (placeWord s w).word = .ok i := by
  have hplace : placeWord s w = placeTrip (wordTrip w && RxState.ofCode (wordState w) != .idle) w
      (placePosition (RxState.ofCode (wordState w)) (wordPos w) s) := by
    simp [placeWord, hr, hv]
  obtain ⟨hst, hpos, hrst, hvalid, hoctet⟩ := placeTrip_fields
    (wordTrip w && RxState.ofCode (wordState w) != .idle) w
    (placePosition (RxState.ofCode (wordState w)) (wordPos w) s)
  rw [placePosition_state] at hst
  obtain ⟨hheader, hdata⟩ := placePosition_posClass (RxState.ofCode (wordState w)) (wordPos w) s
  have htrip := placeTrip_trip (trip := wordTrip w && RxState.ofCode (wordState w) != .idle) w
    (s := placePosition (RxState.ofCode (wordState w)) (wordPos w) s)
    (fun ht => by rw [placePosition_state]; exact bne_iff_ne.mp (Bool.and_eq_true_iff.mp ht).2)
  rw [← hplace] at hst hpos hrst hvalid hoctet htrip
  refine decode_word_of_event ((hasEvent_iff _).mpr ⟨hrst.trans hr, hvalid.trans hv⟩) ?_
  rw [htrip, hst, hpos, hoctet, idle_of_code, code_ofCode]
  rw [← packWord_fields w, decode_ok_iff, toOption_decode, hr, hv] at h
  exact opByFields_placed h (fun hs => hheader (by rw [hs]; rfl)) (fun hs => hdata (by rw [hs]; rfl))

/-- A word is placed so that the word formed decodes alike: without an event the pins suffice. -/
theorem decode_placeWord {s : State} {w : BitVec 16} {i : Instr} (h : decode w = .ok i) :
    decode (placeWord s w).word = .ok i := by
  cases hr : wordRst w with
  | true =>
    have hpins : (placeWord s w).pins.rst = true := by simp [placeWord, hr, pinsOfWord]
    rw [← packWord_fields w, hr] at h
    rw [decode_rst h]
    exact decode_word_reset hpins
  | false =>
    cases hv : wordInValid w with
    | false =>
      have hpins : (placeWord s w).pins.rst = false ∧ (placeWord s w).pins.inValid = false := by
        simp [placeWord, hr, hv, pinsOfWord]
      rw [← packWord_fields w, hr, hv] at h
      rw [decode_quiet h]
      exact decode_word_hold hpins.1 hpins.2
    | true => exact decode_placed_event h hr hv

/-- A word of 16 bits is the table word of its number. -/
theorem tableWord_toNat (w : BitVec 16) : tableWord 16 w.toNat = w := by
  rw [tableWord, Nat.mod_eq_of_lt w.isLt, BitVec.ofNat_toNat, BitVec.setWidth_eq]

/-- A step runs what it decodes. -/
theorem step_eq_exec {s : State} {i : Instr} (h : decode s.word = .ok i) : step s = onNext endCycle (exec i s) := by
  rw [step, runCycle, h]

/-- Settles O35: the placed state decodes to the operation, and a step runs what it decodes. -/
theorem placedWordRuns : Obligations.PlacedWordRuns := by
  intro s w i h
  rw [State.withFetchWord, tableWord_toNat]
  exact ⟨decode_placeWord h, step_eq_exec (decode_placeWord h)⟩

/-- Settles O27: the end of the cycle consumes the pins and counts the cycle. -/
theorem stepRunsTheDecodedOperation : Obligations.StepRunsTheDecodedOperation := by
  intro s i h
  rw [step_eq_exec h]
  cases exec i s <;> rfl

/-- Settles O34: each word is decoded by the operation map. -/
theorem sampleWordsDecode : Obligations.SampleWordsDecode :=
  ⟨by decide, by decide, by decide, by decide, by decide, by decide, by decide, by decide, by decide, by decide⟩

/-! ### The trip bit at its boundaries (R148) -/

/-- Settles O29: each boundary is a case of the comparison of R135. -/
theorem tripBoundaries : Obligations.TripBoundaries := by
  refine ⟨fun s hle => ?_, fun s hs hle => ?_, fun s hs hzero hlt => ?_, fun s hmax => ?_, fun s => trip_idle⟩
  · refine Bool.eq_false_iff.mpr fun ht => ?_
    obtain ⟨-, hlt, -⟩ := (trip_iff s).mp ht
    omega
  · rw [trip_iff]
    refine ⟨fun ⟨_, _, hgap⟩ => hgap, fun h => ⟨hs, ?_, h⟩⟩
    omega
  · refine (trip_iff s).mpr ⟨hs, hlt, ?_⟩
    rw [hzero]
    exact Nat.sub_pos_of_lt hlt
  · refine Bool.eq_false_iff.mpr fun ht => ?_
    obtain ⟨-, -, hgap⟩ := (trip_iff s).mp ht
    have hts := s.ts.isLt
    omega

/-! ### Single operations -/

/-- Settles O26: emit has no record to return (R182). -/
theorem emitRefusesWithoutValid : Obligations.EmitRefusesWithoutValid := by
  intro s hv
  have hemit : emit s = none := by rw [emit, hv, Option.map_none]
  change execEmit s = _
  rw [execEmit, hemit]

/-- D_PAYLOAD is its store, at `data_idx[15:0]` (R171). -/
theorem exec_dPayload_eq_store (octet : Byte) (s : State) :
    exec (.dPayload octet) s = storePayload
      (returnNone (dataStep octet (s.dataIdx + 1#17) { s.frame with payloadCount := s.frame.payloadCount + 1#16 } s))
      (payloadIndex s.dataIdx) octet := rfl

/-- The index D_PAYLOAD writes is `data_idx` without its top bit (R63). -/
theorem payloadIndex_eq_mod (idx : Idx17) : payloadIndex idx = idx.toNat % 65536 :=
  BitVec.toNat_setWidth 16 idx

/-- Only below `length` is D_PAYLOAD dispatched (R91, R93). -/
theorem dataIdx_lt_of_decode_dPayload {s : State} {octet : Byte} (h : decode s.word = .ok (.dPayload octet)) :
    s.dataIdx.toNat < s.frame.length.toNat := by
  obtain ⟨-, -, -, -, hlt, -⟩ : s.pins.rst = false ∧ s.pins.inValid = true ∧ s.state = .data ∧ s.trip = false ∧
      s.dataIdx.toNat < s.frame.length.toNat ∧ octet = s.octet := by
    simpa [CycleChoice, PreambleChoice, HeaderChoice, DataChoice] using decode_word_cases h
  exact hlt

/-- Settles O17: of the indices of 16 bits the store lacks the last alone, which no `data_idx` below a `length` is. -/
theorem dPayloadFaultsOutsideTheStore : Obligations.DPayloadFaultsOutsideTheStore := by
  refine ⟨fun octet s hidx => ?_, fun octet s hidx => ?_, fun octet s _ hdec => ?_⟩
  · rw [exec_dPayload_eq_store, payloadIndex_eq_mod, hidx, storePayload, if_neg (by decide)]
  · rw [exec_dPayload_eq_store, payloadIndex_eq_mod, storePayload, if_pos (by unfold Config.payloadMax; omega)]
    exact ⟨_, rfl⟩
  · have hlt := dataIdx_lt_of_decode_dPayload hdec
    have hlength := s.frame.length.isLt
    omega

/-- D_CRC2 is its two writes, then one of its exits (R173). -/
theorem exec_dCrc2_eq (octet : Byte) (s : State) : exec (.dCrc2 octet) s = execDCrc2 octet s := rfl

/-- Settles O19: the exit is chosen by the check, and finalize is called on the frame with the octet stored. -/
theorem dCrc2Completes : Obligations.DCrc2Completes := by
  refine ⟨fun octet s => ?_, fun s hs hev ht => ?_, fun octet => decode_of_opByFields (by simp [opByFields])⟩
  · have hfinal (err : Option FrameError) :=
      finalizedAs_finalize (s := s) (u := lsbTaken octet s) err s.ts rfl rfl rfl
    rw [exec_dCrc2_eq]
    rcases execDCrc2_cases octet s with ⟨hgood, he⟩ | ⟨hbad, he⟩
    · have heq := (dataGood_iff _).mp hgood
      exact ⟨_, he, rfl, fun _ => hfinal none, fun h => absurd heq h⟩
    · have hne : crc16 octet s.frame.dataCrcRunning ≠ 0xF0B8#16 := by simp [← dataGood_iff, hbad]
      exact ⟨_, he, rfl, fun h => absurd h hne, fun _ => hfinal (some .badDataCrc)⟩
  · simp [decode_word_data_iff hs hev, DataChoice, ht]

end Sys2Proof.Machine
end
